-- ==== Sys2Proof/Word.lean ====
section
/-! DEFINITION. The word types of the block (00_scope.md R14, R17; 30_encoding.md R90). -/

namespace Sys2Proof

/-- An 8-bit value: a register, `DIN`, `DOUT` or a ROM byte (00_scope.md R14). -/
abbrev Byte := BitVec 8

/-- A 16-bit bus address `A` (00_scope.md R12). -/
abbrev Addr := BitVec 16

/-- A byte offset within a 16 KB ROM bank, `ROM_OFF` (00_scope.md R12). -/
abbrev RomOff := BitVec 14

/-- The 3-bit family code `T[27:25]` (30_encoding.md R91). -/
abbrev FamCode := BitVec 3

/-- The transaction word TXN28 (30_encoding.md R90). -/
abbrev Txn28 := BitVec 28

end Sys2Proof
end

