-- ==== Sys2Proof/Syntax.lean ====
section
/-! DEFINITION. The transaction forms of the block: one constructor of `Instr` for each row of
spec/opcode_table.json, and the shape of a row of that table. -/

namespace Sys2Proof

/-- The chip families of `CFG.FAM` (10_state.md R50). -/
inductive Fam where
  /-- NONE: the cartridge has no MBC. -/
  | noMbc
  | mbc1
  | mbc2
  | mbc3
  | mbc5
  /-- UNSUPPORTED: an unrecognised family with an active MBC. -/
  | unsupported
  deriving DecidableEq, Repr

/-- A transaction form with its operands (30_encoding.md R96; 00_scope.md R13).
`fam` is the word's family field where the row does not fix it, `a` the bus address, `v` the written value.
A read carries no `v` (30_encoding.md R94).
Several rows of the table share the mnemonics RD_OPEN, WR_IGNORE and WR_FATAL: each row has its own constructor. -/
inductive Instr where
  /-- RD_ROM0, 0x0000-0x3FFF, any family (R112). -/
  | rdRom0 (fam : FamCode) (a : Addr)
  /-- RD_ROMX, 0x4000-0x7FFF, any family (R111). -/
  | rdRomx (fam : FamCode) (a : Addr)
  /-- RD_OPEN, 0x8000-0x9FFF, any family (R117). -/
  | rdOpenLow (fam : FamCode) (a : Addr)
  /-- RD_XRAM, 0xA000-0xBFFF, any family (R114). -/
  | rdXram (fam : FamCode) (a : Addr)
  /-- RD_OPEN, 0xC000-0xFFFF, any family (R117). -/
  | rdOpenHigh (fam : FamCode) (a : Addr)
  /-- WR_IGNORE, NONE, any address (R212). -/
  | wrIgnoreNoMbc (a : Addr) (v : Byte)
  /-- MBC1_RAMEN, 0x0000-0x1FFF (R131). -/
  | mbc1Ramen (a : Addr) (v : Byte)
  /-- MBC1_ROMB, 0x2000-0x3FFF (R132). -/
  | mbc1Romb (a : Addr) (v : Byte)
  /-- MBC1_RAMB, 0x4000-0x5FFF (R133). -/
  | mbc1Ramb (a : Addr) (v : Byte)
  /-- MBC1_MODE, 0x6000-0x7FFF (R134). -/
  | mbc1Mode (a : Addr) (v : Byte)
  /-- WR_IGNORE, MBC1, 0x8000-0xFFFF (R212). -/
  | wrIgnoreMbc1 (a : Addr) (v : Byte)
  /-- MBC2_ROMB, 0x0000-0x3FFF with `A[8]` = 1 (R151). -/
  | mbc2Romb (a : Addr) (v : Byte)
  /-- MBC2_RAMEN, 0x0000-0x3FFF with `A[8]` = 0 (R152). -/
  | mbc2Ramen (a : Addr) (v : Byte)
  /-- WR_IGNORE, MBC2, 0x4000-0x7FFF (R212). -/
  | wrIgnoreMbc2Low (a : Addr) (v : Byte)
  /-- WR_IGNORE, MBC2, 0x8000-0xFFFF (R212). -/
  | wrIgnoreMbc2High (a : Addr) (v : Byte)
  /-- MBC3_RAMEN, 0x0000-0x1FFF (R161). -/
  | mbc3Ramen (a : Addr) (v : Byte)
  /-- MBC3_ROMB, 0x2000-0x3FFF (R162). -/
  | mbc3Romb (a : Addr) (v : Byte)
  /-- MBC3_SEL, 0x4000-0x5FFF (R163). -/
  | mbc3Sel (a : Addr) (v : Byte)
  /-- MBC3_LATCH, 0x6000-0x7FFF (R170). -/
  | mbc3Latch (a : Addr) (v : Byte)
  /-- WR_IGNORE, MBC3, 0x8000-0xFFFF (R212). -/
  | wrIgnoreMbc3 (a : Addr) (v : Byte)
  /-- MBC5_RAMEN, 0x0000-0x1FFF (R191). -/
  | mbc5Ramen (a : Addr) (v : Byte)
  /-- MBC5_ROMB_LO, 0x2000-0x2FFF (R192). -/
  | mbc5RombLo (a : Addr) (v : Byte)
  /-- MBC5_ROMB_HI, 0x3000-0x3FFF (R193). -/
  | mbc5RombHi (a : Addr) (v : Byte)
  /-- MBC5_RAMB, 0x4000-0x5FFF (R194). -/
  | mbc5Ramb (a : Addr) (v : Byte)
  /-- WR_IGNORE, MBC5, 0x6000-0x7FFF (R212). -/
  | wrIgnoreMbc5Low (a : Addr) (v : Byte)
  /-- WR_IGNORE, MBC5, 0x8000-0xFFFF (R212). -/
  | wrIgnoreMbc5High (a : Addr) (v : Byte)
  /-- WR_FATAL, UNSUPPORTED by family code 5, any address (R215). -/
  | wrFatal5 (a : Addr) (v : Byte)
  /-- WR_FATAL, UNSUPPORTED by family code 6 or 7, any address (R215). -/
  | wrFatal67 (fam : FamCode) (a : Addr) (v : Byte)
  deriving DecidableEq, Repr

/-- One row of spec/opcode_table.json: a word `T` is of the row when `T & mask = value`, where `value` is
the row's `match` (30_encoding.md R95). -/
structure OpcodeRow where
  mnemonic : String
  value : Txn28
  mask : Txn28
  deriving DecidableEq, Repr

/-- Why a number is no transaction word. -/
inductive DecodeError where
  /-- The number has a bit at or above bit 28: it is longer than the one format TXN28
  (30_encoding.md R90, R102).  Safe: no TXN28 word is rejected. -/
  | notTxn28
  deriving DecidableEq, Repr

end Sys2Proof
end

