-- ==== Sys2Proof/WellFormed.lean ====
section
/-! DEFINITION. Which terms of `Instr` are transaction forms: each row's address range and family codes
(30_encoding.md R96, and the `address` column of spec/opcode_table.json). -/

namespace Sys2Proof

/-- `lo <= a <= hi`: a range of addresses includes both ends (00_scope.md R17). -/
def inRange (lo hi : Nat) (a : Addr) : Bool := decide (lo ≤ a.toNat) && decide (a.toNat ≤ hi)

/-- The operands lie where the form's row of the table puts them. -/
def Instr.wf : Instr → Bool
  | .rdRom0 _ a => inRange 0x0000 0x3FFF a
  | .rdRomx _ a => inRange 0x4000 0x7FFF a
  | .rdOpenLow _ a => inRange 0x8000 0x9FFF a
  | .rdXram _ a => inRange 0xA000 0xBFFF a
  | .rdOpenHigh _ a => inRange 0xC000 0xFFFF a
  | .wrIgnoreNoMbc a _ => inRange 0x0000 0xFFFF a
  | .mbc1Ramen a _ => inRange 0x0000 0x1FFF a
  | .mbc1Romb a _ => inRange 0x2000 0x3FFF a
  | .mbc1Ramb a _ => inRange 0x4000 0x5FFF a
  | .mbc1Mode a _ => inRange 0x6000 0x7FFF a
  | .wrIgnoreMbc1 a _ => inRange 0x8000 0xFFFF a
  | .mbc2Romb a _ => inRange 0x0000 0x3FFF a && a.getLsbD 8
  | .mbc2Ramen a _ => inRange 0x0000 0x3FFF a && !a.getLsbD 8
  | .wrIgnoreMbc2Low a _ => inRange 0x4000 0x7FFF a
  | .wrIgnoreMbc2High a _ => inRange 0x8000 0xFFFF a
  | .mbc3Ramen a _ => inRange 0x0000 0x1FFF a
  | .mbc3Romb a _ => inRange 0x2000 0x3FFF a
  | .mbc3Sel a _ => inRange 0x4000 0x5FFF a
  | .mbc3Latch a _ => inRange 0x6000 0x7FFF a
  | .wrIgnoreMbc3 a _ => inRange 0x8000 0xFFFF a
  | .mbc5Ramen a _ => inRange 0x0000 0x1FFF a
  | .mbc5RombLo a _ => inRange 0x2000 0x2FFF a
  | .mbc5RombHi a _ => inRange 0x3000 0x3FFF a
  | .mbc5Ramb a _ => inRange 0x4000 0x5FFF a
  | .wrIgnoreMbc5Low a _ => inRange 0x6000 0x7FFF a
  | .wrIgnoreMbc5High a _ => inRange 0x8000 0xFFFF a
  | .wrFatal5 a _ => inRange 0x0000 0xFFFF a
  | .wrFatal67 fam a _ => inRange 0x0000 0xFFFF a && (fam == 6 || fam == 7)

end Sys2Proof
end

