-- ==== Sys2Proof/Decode.lean ====
section
/-! DEFINITION. The transaction word TXN28: its fields, the decode map of 30_encoding.md R96, the encoder,
and the opcode table of spec/opcode_table.json as data (30_encoding.md R90 to R96). -/

namespace Sys2Proof

/-! ## Fields and families -/

/-- `T = FAM<<25 | W<<24 | A<<8 | V` (30_encoding.md R90). -/
def txn28 (fam : FamCode) (w : BitVec 1) (a : Addr) (v : Byte) : Txn28 := fam ++ w ++ a ++ v

/-- `T[27:25]` (30_encoding.md R90). -/
def famField (t : Txn28) : FamCode := t.extractLsb' 25 3

/-- `T[24]`: 0 is a read, 1 a write (30_encoding.md R92). -/
def dirField (t : Txn28) : BitVec 1 := t.extractLsb' 24 1

/-- `T[23:8]` (30_encoding.md R90). -/
def addrField (t : Txn28) : Addr := t.extractLsb' 8 16

/-- `T[7:0]` (30_encoding.md R90). -/
def valueField (t : Txn28) : Byte := t.extractLsb' 0 8

/-- The family codes of 30_encoding.md R91: 5, 6 and 7 all mean UNSUPPORTED. -/
def famOfCode (c : FamCode) : Fam :=
  match c.toNat with
  | 0 => .noMbc
  | 1 => .mbc1
  | 2 => .mbc2
  | 3 => .mbc3
  | 4 => .mbc5
  | _ => .unsupported

/-! ## Decode -/

/-- The read half of the decode map, by `A[15:13]`; it does not test the family (30_encoding.md R96). -/
def decodeRead (fam : FamCode) (a : Addr) : Instr :=
  match (a.extractLsb' 13 3).toNat with
  | 0 => .rdRom0 fam a
  | 1 => .rdRom0 fam a
  | 2 => .rdRomx fam a
  | 3 => .rdRomx fam a
  | 4 => .rdOpenLow fam a
  | 5 => .rdXram fam a
  | _ => .rdOpenHigh fam a

/-- MBC1 writes, by `A[15:13]` (30_encoding.md R96). -/
def decodeMbc1 (a : Addr) (v : Byte) : Instr :=
  match (a.extractLsb' 13 3).toNat with
  | 0 => .mbc1Ramen a v
  | 1 => .mbc1Romb a v
  | 2 => .mbc1Ramb a v
  | 3 => .mbc1Mode a v
  | _ => .wrIgnoreMbc1 a v

/-- MBC2 writes, by `A[15:14]` and, below 0x4000, `A[8]` (30_encoding.md R96). -/
def decodeMbc2 (a : Addr) (v : Byte) : Instr :=
  match (a.extractLsb' 14 2).toNat with
  | 0 => if a.getLsbD 8 then .mbc2Romb a v else .mbc2Ramen a v
  | 1 => .wrIgnoreMbc2Low a v
  | _ => .wrIgnoreMbc2High a v

/-- MBC3 writes, by `A[15:13]` (30_encoding.md R96). -/
def decodeMbc3 (a : Addr) (v : Byte) : Instr :=
  match (a.extractLsb' 13 3).toNat with
  | 0 => .mbc3Ramen a v
  | 1 => .mbc3Romb a v
  | 2 => .mbc3Sel a v
  | 3 => .mbc3Latch a v
  | _ => .wrIgnoreMbc3 a v

/-- MBC5 writes, by `A[15:12]` (30_encoding.md R96). -/
def decodeMbc5 (a : Addr) (v : Byte) : Instr :=
  match (a.extractLsb' 12 4).toNat with
  | 0 => .mbc5Ramen a v
  | 1 => .mbc5Ramen a v
  | 2 => .mbc5RombLo a v
  | 3 => .mbc5RombHi a v
  | 4 => .mbc5Ramb a v
  | 5 => .mbc5Ramb a v
  | 6 => .wrIgnoreMbc5Low a v
  | 7 => .wrIgnoreMbc5Low a v
  | _ => .wrIgnoreMbc5High a v

/-- The write half of the decode map: the family first, then the address (30_encoding.md R96;
45_write_dispatch.md R210). -/
def decodeWrite (fam : FamCode) (a : Addr) (v : Byte) : Instr :=
  match famOfCode fam with
  | .noMbc => .wrIgnoreNoMbc a v
  | .mbc1 => decodeMbc1 a v
  | .mbc2 => decodeMbc2 a v
  | .mbc3 => decodeMbc3 a v
  | .mbc5 => decodeMbc5 a v
  | .unsupported => if fam = 5 then .wrFatal5 a v else .wrFatal67 fam a v

/-- The transaction form of a word. Decoding is total: no TXN28 word is illegal (30_encoding.md R95, R100).
On a read `V` is ignored (R94). -/
def decode (t : Txn28) : Instr :=
  if dirField t = 0 then decodeRead (famField t) (addrField t)
  else decodeWrite (famField t) (addrField t) (valueField t)

/-- Decode a number of any size; one that does not fit in 28 bits is rejected by name. -/
def decodeNat (w : Nat) : Except DecodeError Instr :=
  if w < 2 ^ 28 then .ok (decode (BitVec.ofNat 28 w)) else .error .notTxn28

/-- What the decoder reads from an instruction whose low `nbits` bits are those of `w` and whose bits above
are 0.  A transaction has one word, so bit 0 of `w` is bit 0 of `T`. -/
def decodeTableWord (nbits w : Nat) : Option Instr :=
  match decodeNat (w % 2 ^ nbits) with
  | .ok i => some i
  | .error _ => none

/-! ## Encode -/

/-- The word of a form. A read is encoded with `V` = 0 (30_encoding.md R94). -/
def encode : Instr → Txn28
  | .rdRom0 fam a => txn28 fam 0 a 0
  | .rdRomx fam a => txn28 fam 0 a 0
  | .rdOpenLow fam a => txn28 fam 0 a 0
  | .rdXram fam a => txn28 fam 0 a 0
  | .rdOpenHigh fam a => txn28 fam 0 a 0
  | .wrIgnoreNoMbc a v => txn28 0 1 a v
  | .mbc1Ramen a v => txn28 1 1 a v
  | .mbc1Romb a v => txn28 1 1 a v
  | .mbc1Ramb a v => txn28 1 1 a v
  | .mbc1Mode a v => txn28 1 1 a v
  | .wrIgnoreMbc1 a v => txn28 1 1 a v
  | .mbc2Romb a v => txn28 2 1 a v
  | .mbc2Ramen a v => txn28 2 1 a v
  | .wrIgnoreMbc2Low a v => txn28 2 1 a v
  | .wrIgnoreMbc2High a v => txn28 2 1 a v
  | .mbc3Ramen a v => txn28 3 1 a v
  | .mbc3Romb a v => txn28 3 1 a v
  | .mbc3Sel a v => txn28 3 1 a v
  | .mbc3Latch a v => txn28 3 1 a v
  | .wrIgnoreMbc3 a v => txn28 3 1 a v
  | .mbc5Ramen a v => txn28 4 1 a v
  | .mbc5RombLo a v => txn28 4 1 a v
  | .mbc5RombHi a v => txn28 4 1 a v
  | .mbc5Ramb a v => txn28 4 1 a v
  | .wrIgnoreMbc5Low a v => txn28 4 1 a v
  | .wrIgnoreMbc5High a v => txn28 4 1 a v
  | .wrFatal5 a v => txn28 5 1 a v
  | .wrFatal67 fam a v => txn28 fam 1 a v

/-! ## The form's operands, and the opcode table -/

/-- The bus address operand `A` of a form. -/
def instrAddr : Instr → Addr
  | .rdRom0 _ a | .rdRomx _ a | .rdOpenLow _ a | .rdXram _ a | .rdOpenHigh _ a => a
  | .wrIgnoreNoMbc a _ | .mbc1Ramen a _ | .mbc1Romb a _ | .mbc1Ramb a _ | .mbc1Mode a _ => a
  | .wrIgnoreMbc1 a _ | .mbc2Romb a _ | .mbc2Ramen a _ | .wrIgnoreMbc2Low a _ => a
  | .wrIgnoreMbc2High a _ | .mbc3Ramen a _ | .mbc3Romb a _ | .mbc3Sel a _ | .mbc3Latch a _ => a
  | .wrIgnoreMbc3 a _ | .mbc5Ramen a _ | .mbc5RombLo a _ | .mbc5RombHi a _ | .mbc5Ramb a _ => a
  | .wrIgnoreMbc5Low a _ | .wrIgnoreMbc5High a _ | .wrFatal5 a _ | .wrFatal67 _ a _ => a

/-- Whether a form is a write, `W` = 1 (30_encoding.md R92). -/
def instrIsWrite : Instr → Bool
  | .rdRom0 _ _ | .rdRomx _ _ | .rdOpenLow _ _ | .rdXram _ _ | .rdOpenHigh _ _ => false
  | .wrIgnoreNoMbc _ _ | .mbc1Ramen _ _ | .mbc1Romb _ _ | .mbc1Ramb _ _ | .mbc1Mode _ _ => true
  | .wrIgnoreMbc1 _ _ | .mbc2Romb _ _ | .mbc2Ramen _ _ | .wrIgnoreMbc2Low _ _ => true
  | .wrIgnoreMbc2High _ _ | .mbc3Ramen _ _ | .mbc3Romb _ _ | .mbc3Sel _ _ | .mbc3Latch _ _ => true
  | .wrIgnoreMbc3 _ _ | .mbc5Ramen _ _ | .mbc5RombLo _ _ | .mbc5RombHi _ _ | .mbc5Ramb _ _ => true
  | .wrIgnoreMbc5Low _ _ | .wrIgnoreMbc5High _ _ | .wrFatal5 _ _ | .wrFatal67 _ _ _ => true

/-- The row of the opcode table, counted from 0, that a form stands for. -/
def instrRow : Instr → Nat
  | .rdRom0 _ _ => 0
  | .rdRomx _ _ => 1
  | .rdOpenLow _ _ => 2
  | .rdXram _ _ => 3
  | .rdOpenHigh _ _ => 4
  | .wrIgnoreNoMbc _ _ => 5
  | .mbc1Ramen _ _ => 6
  | .mbc1Romb _ _ => 7
  | .mbc1Ramb _ _ => 8
  | .mbc1Mode _ _ => 9
  | .wrIgnoreMbc1 _ _ => 10
  | .mbc2Romb _ _ => 11
  | .mbc2Ramen _ _ => 12
  | .wrIgnoreMbc2Low _ _ => 13
  | .wrIgnoreMbc2High _ _ => 14
  | .mbc3Ramen _ _ => 15
  | .mbc3Romb _ _ => 16
  | .mbc3Sel _ _ => 17
  | .mbc3Latch _ _ => 18
  | .wrIgnoreMbc3 _ _ => 19
  | .mbc5Ramen _ _ => 20
  | .mbc5RombLo _ _ => 21
  | .mbc5RombHi _ _ => 22
  | .mbc5Ramb _ _ => 23
  | .wrIgnoreMbc5Low _ _ => 24
  | .wrIgnoreMbc5High _ _ => 25
  | .wrFatal5 _ _ => 26
  | .wrFatal67 _ _ _ => 27

/-- Rows 0 to 13 of spec/opcode_table.json: mnemonic, match, mask. -/
def opcodeRowsLow : List OpcodeRow :=
  [ ⟨"RD_ROM0", 0x0000000, 0x1C00000⟩,
    ⟨"RD_ROMX", 0x0400000, 0x1C00000⟩,
    ⟨"RD_OPEN", 0x0800000, 0x1E00000⟩,
    ⟨"RD_XRAM", 0x0A00000, 0x1E00000⟩,
    ⟨"RD_OPEN", 0x0C00000, 0x1C00000⟩,
    ⟨"WR_IGNORE", 0x1000000, 0xF000000⟩,
    ⟨"MBC1_RAMEN", 0x3000000, 0xFE00000⟩,
    ⟨"MBC1_ROMB", 0x3200000, 0xFE00000⟩,
    ⟨"MBC1_RAMB", 0x3400000, 0xFE00000⟩,
    ⟨"MBC1_MODE", 0x3600000, 0xFE00000⟩,
    ⟨"WR_IGNORE", 0x3800000, 0xF800000⟩,
    ⟨"MBC2_ROMB", 0x5010000, 0xFC10000⟩,
    ⟨"MBC2_RAMEN", 0x5000000, 0xFC10000⟩,
    ⟨"WR_IGNORE", 0x5400000, 0xFC00000⟩ ]

/-- Rows 14 to 27 of spec/opcode_table.json: mnemonic, match, mask. -/
def opcodeRowsHigh : List OpcodeRow :=
  [ ⟨"WR_IGNORE", 0x5800000, 0xF800000⟩,
    ⟨"MBC3_RAMEN", 0x7000000, 0xFE00000⟩,
    ⟨"MBC3_ROMB", 0x7200000, 0xFE00000⟩,
    ⟨"MBC3_SEL", 0x7400000, 0xFE00000⟩,
    ⟨"MBC3_LATCH", 0x7600000, 0xFE00000⟩,
    ⟨"WR_IGNORE", 0x7800000, 0xF800000⟩,
    ⟨"MBC5_RAMEN", 0x9000000, 0xFE00000⟩,
    ⟨"MBC5_ROMB_LO", 0x9200000, 0xFF00000⟩,
    ⟨"MBC5_ROMB_HI", 0x9300000, 0xFF00000⟩,
    ⟨"MBC5_RAMB", 0x9400000, 0xFE00000⟩,
    ⟨"WR_IGNORE", 0x9600000, 0xFE00000⟩,
    ⟨"WR_IGNORE", 0x9800000, 0xF800000⟩,
    ⟨"WR_FATAL", 0xB000000, 0xF000000⟩,
    ⟨"WR_FATAL", 0xD000000, 0xD000000⟩ ]

/-- spec/opcode_table.json, in its order. -/
def opcodeTable : List OpcodeRow := opcodeRowsLow ++ opcodeRowsHigh

/-- `T & mask = match` (30_encoding.md R95). -/
def rowMatches (r : OpcodeRow) (t : Txn28) : Bool := t &&& r.mask == r.value

/-- The mnemonic of a form, by its name in the decode map (30_encoding.md R96). -/
def instrMnemonic : Instr → String
  | .rdRom0 _ _ => "RD_ROM0"
  | .rdRomx _ _ => "RD_ROMX"
  | .rdOpenLow _ _ => "RD_OPEN"
  | .rdXram _ _ => "RD_XRAM"
  | .rdOpenHigh _ _ => "RD_OPEN"
  | .wrIgnoreNoMbc _ _ => "WR_IGNORE"
  | .mbc1Ramen _ _ => "MBC1_RAMEN"
  | .mbc1Romb _ _ => "MBC1_ROMB"
  | .mbc1Ramb _ _ => "MBC1_RAMB"
  | .mbc1Mode _ _ => "MBC1_MODE"
  | .wrIgnoreMbc1 _ _ => "WR_IGNORE"
  | .mbc2Romb _ _ => "MBC2_ROMB"
  | .mbc2Ramen _ _ => "MBC2_RAMEN"
  | .wrIgnoreMbc2Low _ _ => "WR_IGNORE"
  | .wrIgnoreMbc2High _ _ => "WR_IGNORE"
  | .mbc3Ramen _ _ => "MBC3_RAMEN"
  | .mbc3Romb _ _ => "MBC3_ROMB"
  | .mbc3Sel _ _ => "MBC3_SEL"
  | .mbc3Latch _ _ => "MBC3_LATCH"
  | .wrIgnoreMbc3 _ _ => "WR_IGNORE"
  | .mbc5Ramen _ _ => "MBC5_RAMEN"
  | .mbc5RombLo _ _ => "MBC5_ROMB_LO"
  | .mbc5RombHi _ _ => "MBC5_ROMB_HI"
  | .mbc5Ramb _ _ => "MBC5_RAMB"
  | .wrIgnoreMbc5Low _ _ => "WR_IGNORE"
  | .wrIgnoreMbc5High _ _ => "WR_IGNORE"
  | .wrFatal5 _ _ => "WR_FATAL"
  | .wrFatal67 _ _ _ => "WR_FATAL"

end Sys2Proof
end

