-- ==== Sys2Proof/Config.lean ====
section
/-! DEFINITION. The configuration record `CFG` (10_state.md R50), the parameters the document fixes
(00_scope.md R14), and the model's free value. -/

namespace Sys2Proof

/-- `ROM_BANK_SIZE`: 16 KB (00_scope.md R14). -/
def romBankSize : Nat := 0x4000

/-- `RAM_BANK_SIZE`: 8 KB (00_scope.md R14).  No RAM storage is modelled (00_scope.md R8), so only the width
of the RAM/RTC window rests on it. -/
def ramBankSize : Nat := 0x2000

/-- The open-bus value (00_scope.md R14, R20). -/
def openBus : Byte := 0xFF

/-- What an unlisted byte of a ROM image reads as.
DESIGN CHOICE (log entry 5): a way of writing images down, since every image is some list of cells. -/
def romUnlisted : Byte := 0x00

/-- The bytes of a ROM image: (flat address, byte) cells with strictly rising addresses, no cell holding
`romUnlisted` (the canonical form `Memory.wf`).  The flat address is `bank * 0x4000 + off` (20_memory.md R74). -/
abbrev Memory := List Host.Cell

/-- `CFG.MBC5_ROM_FORMULA`, an OPEN parameter (10_state.md R50; 92_eei_decisions.md D13). -/
inductive Mbc5Formula where
  | corrected
  | literal
  deriving DecidableEq, Repr

/-- The configuration record `CFG` (10_state.md R50).  The block never writes it. -/
structure Cfg where
  /-- `CFG.FAM`, by its code of 30_encoding.md R91: codes 5, 6 and 7 are all UNSUPPORTED (log entry 2). -/
  famCode : FamCode
  /-- `CFG.HAS_RAM`: the cartridge declares RAM support. -/
  hasRam : Bool
  /-- `CFG.ROM_GE_1MB`: the large-ROM threshold. -/
  romGe1MB : Bool
  /-- `CFG.RAM_GT_8KB`: the RAM size class is above the 8 KB threshold. -/
  ramGt8KB : Bool
  /-- `CFG.ROM_BANK_COUNT`: the number of 16 KB banks. -/
  romBankCount : Nat
  /-- `CFG.ROM_IMAGE`. -/
  romImage : Memory
  /-- `CFG.MBC5_ROM_FORMULA`. -/
  mbc5RomFormula : Mbc5Formula
  /-- `CFG.MBC5_LITERAL_FN : 8-bit → natural`, as the table of its 256 values; `none` where it is not given
  (10_state.md R51). -/
  mbc5LiteralFn : Option (Vector Nat 256)
  deriving DecidableEq, Repr

/-- The configuration `State.reset` is constructed with.
DESIGN CHOICE (log entry 3): the spec fixes no configuration; this is the default of 95_test_vectors.md
section 0, with no MBC and an image that lists nothing. -/
def Cfg.atReset : Cfg where
  famCode := 0
  hasRam := true
  romGe1MB := false
  ramGt8KB := false
  romBankCount := 128
  romImage := []
  mbc5RomFormula := .corrected
  mbc5LiteralFn := none

/-- `draw8()`: a fresh 8-bit value under no law, the `n`-th draw (00_scope.md R18; 10_state.md R45).
A free value (log entry 8). -/
opaque Config.draw8 : Nat → Byte

end Sys2Proof
end

