-- ==== Sys2Proof/Machine/State.lean ====
section
/-! DEFINITION. The state of the block (10_state.md R30), its configuration, the bus interface
(00_scope.md R12), the state after construction (10_state.md R53), and why a step can stop. -/

namespace Sys2Proof.Machine

/-- The Register Bank: eight 8-bit registers (10_state.md R31). -/
structure RegBank where
  /-- RAM_ENABLE (R32). -/
  ramEnable : Byte
  /-- ROM_BANK_NUMBER (R33). -/
  romBankNumber : Byte
  /-- HIGH_ROM_BANK_BIT (R34). -/
  highRomBankBit : Byte
  /-- RAM_BANK_NUMBER (R35). -/
  ramBankNumber : Byte
  /-- RTC_REGISTER_NUMBER (R36). -/
  rtcRegisterNumber : Byte
  /-- RTC_SELECTION_MODE, stored as NONE = 0, RAM = 1, RTC = 2 (R37; 92_eei_decisions.md D9). -/
  rtcSelectionMode : Byte
  /-- LATCH_TRIGGER (R38). -/
  latchTrigger : Byte
  /-- BANKING_MODE (R39). -/
  bankingMode : Byte
  deriving DecidableEq, Repr

/-- The names of the Register Bank (10_state.md R31). -/
inductive RegName where
  | ramEnable
  | romBankNumber
  | highRomBankBit
  | ramBankNumber
  | rtcRegisterNumber
  | rtcSelectionMode
  | latchTrigger
  | bankingMode
  deriving DecidableEq, Repr

/-- An entry of the RTC file (10_state.md R44). -/
inductive RtcEntry where
  | unlatched
  | latched (v : Byte)
  deriving DecidableEq, Repr

/-- The RTC register file, indices 0x08 to 0x0C in this order (10_state.md R44). -/
structure RtcFile where
  /-- 0x08. -/
  seconds : RtcEntry
  /-- 0x09. -/
  minutes : RtcEntry
  /-- 0x0A. -/
  hours : RtcEntry
  /-- 0x0B: day counter bits 7..0. -/
  dayLow : RtcEntry
  /-- 0x0C: day counter bit 8, as 0 or 1. -/
  dayHigh : RtcEntry
  deriving DecidableEq, Repr

/-- The reasons of a FAULTED stop, with what the stop records (60_exceptions.md R250). -/
inductive StopReason where
  /-- ROM_BANK_OUT_OF_RANGE: the bank the read mapped to, and the transaction's `A`. -/
  | romBankOutOfRange (bank : Nat) (addr : Addr)
  deriving DecidableEq, Repr

/-- `S.stop` (10_state.md R46). -/
inductive Stop where
  | running
  | fatal
  | faulted (r : StopReason)
  deriving DecidableEq, Repr

/-- A sample of the host's wall clock (43_write_mbc3_rtc.md R176).  No range is assumed. -/
structure ClockSample where
  sec : Byte
  min : Byte
  hour : Byte
  day : Nat
  deriving DecidableEq, Repr

/-- A bus transaction as the host's bus driver hands it over (00_scope.md R11, R12): `KIND`, `A`, and for a
write `DIN` and the clock sample `CLK` that the host supplies with it. -/
inductive BusTxn where
  | read (a : Addr)
  | write (a : Addr) (din : Byte) (clk : ClockSample)
  deriving DecidableEq, Repr

/-- What a ROM read presents to the ROM image: `ROM_BANK` and `ROM_OFF` (00_scope.md R12). -/
structure RomPort where
  bank : Nat
  off : RomOff
  deriving DecidableEq, Repr

/-- The machine.  The first five fields are the spec's state `S` (10_state.md R30); `cfg` is the configuration
(10_state.md R50), which no step changes; the others are the interface of 00_scope.md R12 and the model's
own draw counter. -/
structure State where
  /-- `S.REG`. -/
  reg : RegBank
  /-- `S.currentRomBank`, and the output `CUR_ROM_BANK`. -/
  currentRomBank : Nat
  /-- `S.currentRamBank`, and the output `RAM_BANK`. -/
  currentRamBank : Nat
  /-- `S.RTC`. -/
  rtc : RtcFile
  /-- `S.stop`, which drives the outputs `FATAL` and `FAULT`. -/
  stop : Stop
  /-- `CFG`. -/
  cfg : Cfg
  /-- The transactions the host hands over, the next one first (20_memory.md R76). -/
  bus : List BusTxn
  /-- `CLK`: the clock sample that stands at the block's input for the transaction in hand. -/
  clk : ClockSample
  /-- `DOUT` of the last transaction: `none` where it drove no byte (a write, or a read that stopped). -/
  dout : Option Byte
  /-- `ROM_BANK` and `ROM_OFF` of the last transaction: `none` where it was no ROM read. -/
  romPort : Option RomPort
  /-- The model's own: how many times `draw8()` has been used (log entry 8). -/
  draws : Nat
  deriving DecidableEq, Repr

/-- The faults of a step. -/
inductive Fault where
  /-- A transaction after a fatal write: `S.stop` is FATAL and no transaction has a step
  (60_exceptions.md R252).  Raised by every form.  Safe: the machine has stopped. -/
  | stoppedFatal
  /-- A transaction after a model fault: `S.stop` is FAULTED and no transaction has a step
  (60_exceptions.md R252).  Raised by every form.  Safe: the machine has stopped. -/
  | stoppedFaulted (r : StopReason)
  deriving DecidableEq, Repr

/-- The refusals of a step. -/
inductive Refusal where
  /-- An instruction with no meaning yet: raised by an arm of `exec` only.  Safe. -/
  | notModelled (mnemonic : String)
  /-- The configuration fails a check of 10_state.md R51: raised by construction and by every form.
  Safe: such a block is never constructed. -/
  | badConfiguration
  /-- The host has handed over no transaction: raised by `step` only (00_scope.md R11: the block never
  initiates I/O).  Safe: the block waits. -/
  | noTransaction
  /-- A write form of one family run under another: raised by a write form only, and never by a step, whose word
  takes its family from `CFG.FAM` (30_encoding.md R90).  Safe: no transaction is refused by it. -/
  | familyMismatch
  deriving DecidableEq, Repr

/-- The empty Register Bank: a register never written reads as 0 (10_state.md R31). -/
def RegBank.empty : RegBank where
  ramEnable := 0
  romBankNumber := 0
  highRomBankBit := 0
  ramBankNumber := 0
  rtcRegisterNumber := 0
  rtcSelectionMode := 0
  latchTrigger := 0
  bankingMode := 0

/-- The RTC file before any latch (10_state.md R44). -/
def RtcFile.unlatched : RtcFile where
  seconds := .unlatched
  minutes := .unlatched
  hours := .unlatched
  dayLow := .unlatched
  dayHigh := .unlatched

/-- The state right after construction with `cfg` (10_state.md R53; 70_reset_and_hazards.md R280).
The clock input and the draw counter stand at values of the model's own (log entries 7 and 8). -/
def State.ofConfig (cfg : Cfg) : State where
  reg := RegBank.empty
  currentRomBank := 1
  currentRamBank := 0
  rtc := RtcFile.unlatched
  stop := .running
  cfg := cfg
  bus := []
  clk := ⟨0, 0, 0, 0⟩
  dout := none
  romPort := none
  draws := 0

/-- The machine right after reset, which is construction (70_reset_and_hazards.md R280), with the
configuration of log entry 3. -/
def State.reset : State := State.ofConfig Cfg.atReset

end Sys2Proof.Machine
end

