-- ==== Sys2Proof/Machine/Memory.lean ====
section
/-! DEFINITION. The ROM image: reading a byte, its canonical form, and building an image
(20_memory.md R60, R65, R66, R74). -/

namespace Sys2Proof.Machine

/-- The byte at a flat address: the cell that lists it, else `romUnlisted`. -/
def Memory.read : Memory → Nat → Byte
  | [], _ => romUnlisted
  | (k, b) :: rest, n => if k = n then b else Memory.read rest n

/-- Cells rise strictly from `lo`, and none holds what an unlisted byte reads as. -/
def Memory.risesFrom : Nat → Memory → Bool
  | _, [] => true
  | lo, (k, b) :: rest => decide (lo ≤ k) && b != romUnlisted && Memory.risesFrom (k + 1) rest

/-- The canonical form: two images that read alike are equal lists. -/
def Memory.wf (m : Memory) : Bool := Memory.risesFrom 0 m

/-- Put one byte into an image, keeping the canonical form.  Used by whoever builds the configuration
(70_reset_and_hazards.md R283); no transaction writes ROM (20_memory.md R65). -/
def Memory.write : Memory → Nat → Byte → Memory
  | [], n, v => if v = romUnlisted then [] else [(n, v)]
  | (k, b) :: rest, n, v =>
    if n < k then (if v = romUnlisted then (k, b) :: rest else (n, v) :: (k, b) :: rest)
    else if n = k then (if v = romUnlisted then rest else (n, v) :: rest)
    else (k, b) :: Memory.write rest n v

/-- Every cell lies below `n`: no byte past the end of the image. -/
def Memory.below (n : Nat) (m : Memory) : Bool := m.all fun c => decide (c.1 < n)

/-- The flat ROM byte address `bank * 0x4000 + off` (20_memory.md R74). -/
def romFlat (bank : Nat) (off : RomOff) : Nat := bank * romBankSize + off.toNat

/-- `CFG.ROM_IMAGE(bank, off)` (10_state.md R50). -/
def romByte (cfg : Cfg) (bank : Nat) (off : RomOff) : Byte := Memory.read cfg.romImage (romFlat bank off)

/-- A configuration with one byte of its ROM image set. -/
def cfgWithRomByte (cfg : Cfg) (bank : Nat) (off : RomOff) (v : Byte) : Cfg :=
  { cfg with romImage := Memory.write cfg.romImage (romFlat bank off) v }

end Sys2Proof.Machine
end

