-- ==== Sys2Proof/Machine/Operands.lean ====
section
/-! DEFINITION. Operands: the family of a configuration, the Register Bank's read and write, how each write
form turns `V` into the stored value (30_encoding.md R97), and ROM offsets (30_encoding.md R98). -/

namespace Sys2Proof.Machine

/-- `CFG.FAM` (10_state.md R50; 30_encoding.md R91). -/
def famOf (cfg : Cfg) : Fam := famOfCode cfg.famCode

/-- `REG[r]` (00_scope.md R18). -/
def RegBank.get (g : RegBank) : RegName → Byte
  | .ramEnable => g.ramEnable
  | .romBankNumber => g.romBankNumber
  | .highRomBankBit => g.highRomBankBit
  | .ramBankNumber => g.ramBankNumber
  | .rtcRegisterNumber => g.rtcRegisterNumber
  | .rtcSelectionMode => g.rtcSelectionMode
  | .latchTrigger => g.latchTrigger
  | .bankingMode => g.bankingMode

/-- `REG[r] <- v`: an unconditional overwrite with no validation (10_state.md R31). -/
def RegBank.set (g : RegBank) (r : RegName) (v : Byte) : RegBank :=
  match r with
  | .ramEnable => { g with ramEnable := v }
  | .romBankNumber => { g with romBankNumber := v }
  | .highRomBankBit => { g with highRomBankBit := v }
  | .ramBankNumber => { g with ramBankNumber := v }
  | .rtcRegisterNumber => { g with rtcRegisterNumber := v }
  | .rtcSelectionMode => { g with rtcSelectionMode := v }
  | .latchTrigger => { g with latchTrigger := v }
  | .bankingMode => { g with bankingMode := v }

/-- The stored codes of RTC_SELECTION_MODE (10_state.md R37; 92_eei_decisions.md D9). -/
def selNone : Byte := 0

/-- RAM (10_state.md R37). -/
def selRam : Byte := 1

/-- RTC (10_state.md R37). -/
def selRtc : Byte := 2

/-- The low 4 bits: RAM_ENABLE, and MBC2's ROM_BANK_NUMBER (30_encoding.md R97). -/
def low4 (v : Byte) : Byte := v &&& 0x0F

/-- The low 5 bits: ROM_BANK_NUMBER of MBC1 and MBC3 (30_encoding.md R97). -/
def low5 (v : Byte) : Byte := v &&& 0x1F

/-- The low 2 bits: MBC1's RAM_BANK_NUMBER (30_encoding.md R97). -/
def low2 (v : Byte) : Byte := v &&& 0x03

/-- The low bit: BANKING_MODE and HIGH_ROM_BANK_BIT (30_encoding.md R97). -/
def low1 (v : Byte) : Byte := v &&& 0x01

/-- The offset of a ROM read: `A[13:0]`, in both windows (30_encoding.md R98; 20_memory.md R69). -/
def romOffset (a : Addr) : RomOff := a.extractLsb' 0 14

/-- The index range of an RAM selection, `V` in 0..3 (30_encoding.md R99). -/
def selectsRam (v : Byte) : Bool := decide (v.toNat ≤ 0x03)

/-- The index range of an RTC selection, `V` in 8..12 (30_encoding.md R99). -/
def selectsRtc (v : Byte) : Bool := decide (0x08 ≤ v.toNat) && decide (v.toNat ≤ 0x0C)

/-- `S.RTC[i]` (10_state.md R44).  The file has no other index; one that is asked for holds nothing, as if
UNLATCHED (log entry 9; no run asks for one, by R36). -/
def RtcFile.entry (f : RtcFile) (i : Byte) : RtcEntry :=
  if i = 0x08 then f.seconds
  else if i = 0x09 then f.minutes
  else if i = 0x0A then f.hours
  else if i = 0x0B then f.dayLow
  else if i = 0x0C then f.dayHigh
  else .unlatched

end Sys2Proof.Machine
end

