-- ==== Sys2Proof/Machine/Flags.lean ====
section
/-! DEFINITION. Conditions computed from the registers.  The block has no flags or condition codes as state
(10_state.md R48): these are its predicates. -/

namespace Sys2Proof.Machine

/-- `isRamEnabled()` (46_bank_index.md R220). -/
def isRamEnabled (g : RegBank) : Bool := g.ramEnable &&& 0x0F == 0x0A

/-- `LatchEdge(V)`: a 0 to 1 transition of the stored trigger (43_write_mbc3_rtc.md R175). -/
def latchEdge (g : RegBank) (v : Byte) : Bool := g.latchTrigger == 0 && v == 1

/-- `MBC1LargeRomQuirk()` (40_read_path.md R113). -/
def mbc1LargeRomQuirk (cfg : Cfg) (g : RegBank) : Bool :=
  famOf cfg == .mbc1 && g.bankingMode == 1 && cfg.romGe1MB && g.romBankNumber == 0

/-- RD_XRAM answers from the RTC file (40_read_path.md R114). -/
def readsRtc (cfg : Cfg) (g : RegBank) : Bool :=
  cfg.hasRam && famOf cfg == .mbc3 && g.rtcSelectionMode == selRtc

end Sys2Proof.Machine
end

