-- ==== Sys2Proof/Machine/BankIndex.lean ====
section
/-! DEFINITION. Bank-index computation (46_bank_index.md).  All arithmetic is on unsigned naturals (R229). -/

namespace Sys2Proof.Machine

/-- MBC1: `(high << 5) | low`, remapped to `(high << 5) + 1` when `low = 0`, where `low` is ROM_BANK_NUMBER and
`high` is RAM_BANK_NUMBER (R222). -/
def computeRomBankMbc1 (g : RegBank) : Nat :=
  if g.romBankNumber.toNat = 0 then (g.ramBankNumber.toNat <<< 5) + 1
  else (g.ramBankNumber.toNat <<< 5) ||| g.romBankNumber.toNat

/-- MBC2 and MBC3: the register itself, with no zero-bank remap (R223, R224). -/
def computeRomBankDirect (g : RegBank) : Nat := g.romBankNumber.toNat

/-- MBC5 CORRECTED: the nine-bit bank (R225). -/
def computeRomBankMbc5 (g : RegBank) : Nat :=
  (g.highRomBankBit.toNat <<< 8) ||| g.romBankNumber.toNat

/-- MBC5 LITERAL: `CFG.MBC5_LITERAL_FN` of ROM_BANK_NUMBER alone (R226); `none` where the configuration does
not give the function. -/
def computeRomBankLiteral (cfg : Cfg) (g : RegBank) : Option Nat :=
  match cfg.mbc5LiteralFn with
  | some f => some (f.get g.romBankNumber.toFin)
  | none => none

/-- `computeRomBank()` (R221).  `none` where the spec has no formula: NONE and UNSUPPORTED, under which it is
never called (R227), and a LITERAL whose function is not given, which no accepted configuration has
(10_state.md R51). -/
def computeRomBank (cfg : Cfg) (g : RegBank) : Option Nat :=
  match famOf cfg with
  | .mbc1 => some (computeRomBankMbc1 g)
  | .mbc2 => some (computeRomBankDirect g)
  | .mbc3 => some (computeRomBankDirect g)
  | .mbc5 =>
    match cfg.mbc5RomFormula with
    | .corrected => some (computeRomBankMbc5 g)
    | .literal => computeRomBankLiteral cfg g
  | .noMbc => none
  | .unsupported => none

/-- MBC1 RAM bank (R231). -/
def computeRamBankMbc1 (cfg : Cfg) (g : RegBank) : Nat :=
  if g.bankingMode = 0 then 0 else if cfg.ramGt8KB then g.ramBankNumber.toNat else 0

/-- MBC3 RAM bank (R233). -/
def computeRamBankMbc3 (g : RegBank) : Nat :=
  if g.rtcSelectionMode = selRam then g.ramBankNumber.toNat else 0

/-- `computeRamBank()` (R230; MBC2 is R232, MBC5 R234, any other family R235). -/
def computeRamBank (cfg : Cfg) (g : RegBank) : Nat :=
  match famOf cfg with
  | .mbc1 => computeRamBankMbc1 cfg g
  | .mbc2 => 0
  | .mbc3 => computeRamBankMbc3 g
  | .mbc5 => g.ramBankNumber.toNat
  | .noMbc => 0
  | .unsupported => 0

end Sys2Proof.Machine
end

