-- ==== Sys2Proof/Machine/Ops.lean ====
section
/-! DEFINITION. The shared operations of the transaction forms: construction, the guards of a transaction,
the ROM and RTC reads, the register store, the recomputes, the latch, the two stops, and taking the next
transaction from the host. -/

namespace Sys2Proof.Machine

/-! ## Construction -/

/-- Well-formedness of `CFG` (10_state.md R51).  An image is total by the way it is written down; it lists no
byte past its last bank. -/
def cfgOk (cfg : Cfg) : Bool :=
  decide (1 ≤ cfg.romBankCount)
    && (Memory.wf cfg.romImage && Memory.below (cfg.romBankCount * romBankSize) cfg.romImage)
    && (!cfg.ramGt8KB || cfg.hasRam)
    && (!(famOf cfg == .mbc5 && cfg.mbc5RomFormula == .literal) || cfg.mbc5LiteralFn.isSome)

/-- Construction, the block's only reset (70_reset_and_hazards.md R280, R281).  A configuration that fails a
check is refused before the first transaction (10_state.md R51). -/
def construct (cfg : Cfg) : Host.Outcome State Fault Refusal :=
  if cfgOk cfg then .next (State.ofConfig cfg) else .refused .badConfiguration

/-! ## The guards of a transaction -/

/-- No byte on `DOUT`, no ROM bank presented: where every transaction starts (45_write_dispatch.md R214). -/
def clearOutputs (s : State) : State := { s with dout := none, romPort := none }

/-- A transaction that does `k`: it needs a configuration that passes its checks (10_state.md R51) and
`S.stop` = RUNNING, without which it has no step (60_exceptions.md R252). -/
def transact (s : State) (k : State → State) : Host.Outcome State Fault Refusal :=
  if cfgOk s.cfg then
    match s.stop with
    | .running => .next (k (clearOutputs s))
    | .fatal => .fault .stoppedFatal
    | .faulted r => .fault (.stoppedFaulted r)
  else .refused .badConfiguration

/-- A write transaction of one family: the form exists under `CFG.FAM` = `fam` only (30_encoding.md R96). -/
def transactOn (fam : Fam) (s : State) (k : State → State) : Host.Outcome State Fault Refusal :=
  if famOf s.cfg = fam then transact s k else .refused .familyMismatch

/-! ## Registers and bank indices -/

/-- `REG[r] <- v` on the state. -/
def setReg (r : RegName) (v : Byte) (s : State) : State := { s with reg := s.reg.set r v }

/-- `S.currentRomBank <- computeRomBank()`.  Where the spec has no formula the recompute is not called and the
index stays (46_bank_index.md R227); no accepted write form comes to that case. -/
def recomputeRom (s : State) : State :=
  match computeRomBank s.cfg s.reg with
  | some b => { s with currentRomBank := b }
  | none => s

/-- `S.currentRamBank <- computeRamBank()`. -/
def recomputeRam (s : State) : State := { s with currentRamBank := computeRamBank s.cfg s.reg }

/-! ## Reads -/

/-- `return v`: put `v` on `DOUT` (00_scope.md R18). -/
def answer (v : Byte) (s : State) : State := { s with dout := some v }

/-- While `RomRead` runs the block drives `ROM_BANK` and `ROM_OFF` (20_memory.md R66). -/
def present (bank : Nat) (off : RomOff) (s : State) : State := { s with romPort := some ⟨bank, off⟩ }

/-- `raise Fault(ROM_BANK_OUT_OF_RANGE, bank)`: the whole entry is the write of `S.stop`
(60_exceptions.md R253, R256). -/
def raiseRomFault (bank : Nat) (a : Addr) (s : State) : State :=
  { s with stop := .faulted (.romBankOutOfRange bank a) }

/-- `raise Fatal(UNSUPPORTED_CHIP)` (60_exceptions.md R251). -/
def raiseFatal (s : State) : State := { s with stop := .fatal }

/-- `RomRead(bank, off)` for the transaction at `a` (20_memory.md R66, R67). -/
def romRead (bank : Nat) (off : RomOff) (a : Addr) (s : State) : State :=
  if bank < s.cfg.romBankCount then answer (romByte s.cfg bank off) (present bank off s)
  else raiseRomFault bank a (present bank off s)

/-- `return draw8()`: a free value, and the next draw is another one (10_state.md R45). -/
def answerDraw (s : State) : State :=
  { s with dout := some (Config.draw8 s.draws), draws := s.draws + 1 }

/-- `RtcRead(i)` (40_read_path.md R115). -/
def rtcRead (i : Byte) (s : State) : State :=
  match s.rtc.entry i with
  | .latched v => answer v s
  | .unlatched => answerDraw s

/-! ## The RTC latch -/

/-- The five entries written from one sample (43_write_mbc3_rtc.md R177). -/
def rtcOfSample (c : ClockSample) : RtcFile where
  seconds := .latched c.sec
  minutes := .latched c.min
  hours := .latched c.hour
  dayLow := .latched (BitVec.ofNat 8 (c.day &&& 0xFF))
  dayHigh := .latched (BitVec.ofNat 8 ((c.day >>> 8) &&& 0x01))

/-- `LatchSample(ClockSample())`: the clock is read when the latching write is processed
(43_write_mbc3_rtc.md R176, R177). -/
def latchSample (s : State) : State := { s with rtc := rtcOfSample s.clk }

/-! ## Outputs of the block (00_scope.md R12) -/

/-- `CUR_ROM_BANK`. -/
def curRomBankOut (s : State) : Nat := s.currentRomBank

/-- `RAM_BANK`. -/
def ramBankOut (s : State) : Nat := s.currentRamBank

/-- `FATAL`. -/
def fatalOut (s : State) : Bool := s.stop == .fatal

/-- `FAULT`: set with its reason. -/
def faultOut (s : State) : Option StopReason :=
  match s.stop with
  | .faulted r => some r
  | .fatal => none
  | .running => none

/-- The numeric code of a stop (60_exceptions.md R250). -/
def stopCode : Stop → Option Nat
  | .running => none
  | .fatal => some 1
  | .faulted (.romBankOutOfRange _ _) => some 2

/-! ## The next transaction -/

/-- The word of a transaction; its family is `CFG.FAM` (30_encoding.md R90), and a read has `V` = 0 (R94). -/
def txnWord (cfg : Cfg) : BusTxn → Txn28
  | .read a => txn28 cfg.famCode 0 a 0
  | .write a din _ => txn28 cfg.famCode 1 a din

/-- The clock input while a transaction is in hand: a write brings its sample, a read leaves the input. -/
def clkFor (t : BusTxn) (c : ClockSample) : ClockSample :=
  match t with
  | .read _ => c
  | .write _ _ clk => clk

/-- Take the next transaction the host has handed over (20_memory.md R76), and decode it. -/
def fetch (s : State) : Option (Instr × State) :=
  match s.bus with
  | [] => none
  | t :: rest => some (decode (txnWord s.cfg t), { s with bus := rest, clk := clkFor t s.clk })

/-- The transaction a word stands for.  A word holds no clock sample: a write's is the one given. -/
def txnOfWord (t : Txn28) (clk : ClockSample) : BusTxn :=
  if dirField t = 0 then .read (addrField t) else .write (addrField t) (valueField t) clk

/-- The state in which the host hands over, next, the transaction of the word `t` to a block of that word's
family.  DESIGN CHOICE (log entry 22): a write handed over so brings the clock sample that already stands at the
input `s.clk`, since its word holds none (43_write_mbc3_rtc.md R176 leaves the sample to the host). -/
def handOver (t : Txn28) (s : State) : State :=
  { s with cfg := { s.cfg with famCode := famField t }, bus := txnOfWord t s.clk :: s.bus }

end Sys2Proof.Machine
end

