-- ==== Sys2Proof/Machine/Mbc1.lean ====
section
/-! DEFINITION. The MBC1 write forms (41_write_mbc1.md). -/

namespace Sys2Proof.Machine

/-- MBC1_RAMEN (R131). -/
def execMbc1Ramen (_a : Addr) (v : Byte) (s : State) : Host.Outcome State Fault Refusal :=
  transactOn .mbc1 s fun s => recomputeRam (setReg .ramEnable (low4 v) s)

/-- MBC1_ROMB (R132). -/
def execMbc1Romb (_a : Addr) (v : Byte) (s : State) : Host.Outcome State Fault Refusal :=
  transactOn .mbc1 s fun s => recomputeRom (setReg .romBankNumber (low5 v) s)

/-- MBC1_RAMB (R133). -/
def execMbc1Ramb (_a : Addr) (v : Byte) (s : State) : Host.Outcome State Fault Refusal :=
  transactOn .mbc1 s fun s => recomputeRam (recomputeRom (setReg .ramBankNumber (low2 v) s))

/-- MBC1_MODE (R134). -/
def execMbc1Mode (_a : Addr) (v : Byte) (s : State) : Host.Outcome State Fault Refusal :=
  transactOn .mbc1 s fun s =>
    let s := setReg .bankingMode (low1 v) s
    if isRamEnabled s.reg then recomputeRam s else s

/-- WR_IGNORE under MBC1 (45_write_dispatch.md R212). -/
def execWrIgnoreMbc1 (_a : Addr) (_v : Byte) (s : State) : Host.Outcome State Fault Refusal :=
  transactOn .mbc1 s id

end Sys2Proof.Machine
end

