-- ==== Sys2Proof/Machine/Mbc2.lean ====
section
/-! DEFINITION. The MBC2 write forms (42_write_mbc2.md). -/

namespace Sys2Proof.Machine

/-- MBC2_ROMB (R151). -/
def execMbc2Romb (_a : Addr) (v : Byte) (s : State) : Host.Outcome State Fault Refusal :=
  transactOn .mbc2 s fun s => recomputeRom (setReg .romBankNumber (low4 v) s)

/-- MBC2_RAMEN (R152). -/
def execMbc2Ramen (_a : Addr) (v : Byte) (s : State) : Host.Outcome State Fault Refusal :=
  transactOn .mbc2 s fun s => recomputeRam (setReg .ramEnable (low4 v) s)

/-- WR_IGNORE under MBC2 at 0x4000-0x7FFF (45_write_dispatch.md R212). -/
def execWrIgnoreMbc2Low (_a : Addr) (_v : Byte) (s : State) : Host.Outcome State Fault Refusal :=
  transactOn .mbc2 s id

/-- WR_IGNORE under MBC2 at 0x8000-0xFFFF (45_write_dispatch.md R212). -/
def execWrIgnoreMbc2High (_a : Addr) (_v : Byte) (s : State) : Host.Outcome State Fault Refusal :=
  transactOn .mbc2 s id

end Sys2Proof.Machine
end

