-- ==== Sys2Proof/Machine/Mbc3.lean ====
section
/-! DEFINITION. The MBC3 write forms and the RTC latch (43_write_mbc3_rtc.md). -/

namespace Sys2Proof.Machine

/-- MBC3_RAMEN (R161). -/
def execMbc3Ramen (_a : Addr) (v : Byte) (s : State) : Host.Outcome State Fault Refusal :=
  transactOn .mbc3 s fun s => recomputeRam (setReg .ramEnable (low4 v) s)

/-- MBC3_ROMB (R162). -/
def execMbc3Romb (_a : Addr) (v : Byte) (s : State) : Host.Outcome State Fault Refusal :=
  transactOn .mbc3 s fun s => recomputeRom (setReg .romBankNumber (low5 v) s)

/-- MBC3_SEL (R163), with the sub-decode of 30_encoding.md R99. -/
def execMbc3Sel (_a : Addr) (v : Byte) (s : State) : Host.Outcome State Fault Refusal :=
  transactOn .mbc3 s fun s =>
    let s := setReg .rtcSelectionMode selNone s
    if selectsRam v then recomputeRam (setReg .ramBankNumber v (setReg .rtcSelectionMode selRam s))
    else if selectsRtc v then setReg .rtcRegisterNumber v (setReg .rtcSelectionMode selRtc s)
    else s

/-- MBC3_LATCH (R170): the edge is tested before `V` is stored, and `V` is stored always. -/
def execMbc3Latch (_a : Addr) (v : Byte) (s : State) : Host.Outcome State Fault Refusal :=
  transactOn .mbc3 s fun s =>
    setReg .latchTrigger v (if latchEdge s.reg v then latchSample s else s)

/-- WR_IGNORE under MBC3 (45_write_dispatch.md R212); no RTC register is written (R179). -/
def execWrIgnoreMbc3 (_a : Addr) (_v : Byte) (s : State) : Host.Outcome State Fault Refusal :=
  transactOn .mbc3 s id

end Sys2Proof.Machine
end

