-- ==== Sys2Proof/Machine/Mbc5.lean ====
section
/-! DEFINITION. The MBC5 write forms (44_write_mbc5.md). -/

namespace Sys2Proof.Machine

/-- MBC5_RAMEN (R191). -/
def execMbc5Ramen (_a : Addr) (v : Byte) (s : State) : Host.Outcome State Fault Refusal :=
  transactOn .mbc5 s fun s => recomputeRam (setReg .ramEnable (low4 v) s)

/-- MBC5_ROMB_LO (R192): all 8 bits. -/
def execMbc5RombLo (_a : Addr) (v : Byte) (s : State) : Host.Outcome State Fault Refusal :=
  transactOn .mbc5 s fun s => recomputeRom (setReg .romBankNumber v s)

/-- MBC5_ROMB_HI (R193). -/
def execMbc5RombHi (_a : Addr) (v : Byte) (s : State) : Host.Outcome State Fault Refusal :=
  transactOn .mbc5 s fun s => recomputeRom (setReg .highRomBankBit (low1 v) s)

/-- MBC5_RAMB (R194): all 8 bits, unmasked. -/
def execMbc5Ramb (_a : Addr) (v : Byte) (s : State) : Host.Outcome State Fault Refusal :=
  transactOn .mbc5 s fun s => recomputeRam (setReg .ramBankNumber v s)

/-- WR_IGNORE under MBC5 at 0x6000-0x7FFF (45_write_dispatch.md R212). -/
def execWrIgnoreMbc5Low (_a : Addr) (_v : Byte) (s : State) : Host.Outcome State Fault Refusal :=
  transactOn .mbc5 s id

/-- WR_IGNORE under MBC5 at 0x8000-0xFFFF (45_write_dispatch.md R212). -/
def execWrIgnoreMbc5High (_a : Addr) (_v : Byte) (s : State) : Host.Outcome State Fault Refusal :=
  transactOn .mbc5 s id

end Sys2Proof.Machine
end

