-- ==== Sys2Proof/Machine/NoMbc.lean ====
section
/-! DEFINITION. Writes on a cartridge with no MBC, and under an unsupported family (45_write_dispatch.md). -/

namespace Sys2Proof.Machine

/-- WR_IGNORE under NONE (R211, R212). -/
def execWrIgnoreNoMbc (_a : Addr) (_v : Byte) (s : State) : Host.Outcome State Fault Refusal :=
  transactOn .noMbc s id

/-- WR_FATAL, family code 5: it takes the fatal stop, whatever the address (R215). -/
def execWrFatal5 (_a : Addr) (_v : Byte) (s : State) : Host.Outcome State Fault Refusal :=
  transactOn .unsupported s raiseFatal

/-- WR_FATAL, family codes 6 and 7: it takes the fatal stop, whatever the address (R215). -/
def execWrFatal67 (_fam : FamCode) (_a : Addr) (_v : Byte) (s : State) : Host.Outcome State Fault Refusal :=
  transactOn .unsupported s raiseFatal

end Sys2Proof.Machine
end

