-- ==== Sys2Proof/Machine/Read.lean ====
section
/-! DEFINITION. The read forms (40_read_path.md).  No read changes `S`, but for the stop of a read that faults
(R118). -/

namespace Sys2Proof.Machine

/-- RD_ROMX (R111). -/
def execRdRomx (_fam : FamCode) (a : Addr) (s : State) : Host.Outcome State Fault Refusal :=
  transact s fun s => romRead s.currentRomBank (romOffset a) a s

/-- RD_ROM0 (R112, with the quirk of R113). -/
def execRdRom0 (_fam : FamCode) (a : Addr) (s : State) : Host.Outcome State Fault Refusal :=
  transact s fun s =>
    if mbc1LargeRomQuirk s.cfg s.reg then romRead (s.reg.ramBankNumber.toNat <<< 5) (romOffset a) a s
    else romRead 0 (romOffset a) a s

/-- RD_XRAM (R114, R115, R116).  It reads no bit of the address and is not gated by RAM_ENABLE. -/
def execRdXram (_fam : FamCode) (_a : Addr) (s : State) : Host.Outcome State Fault Refusal :=
  transact s fun s =>
    if readsRtc s.cfg s.reg then rtcRead s.reg.rtcRegisterNumber s else answer openBus s

/-- RD_OPEN at 0x8000-0x9FFF (R117). -/
def execRdOpenLow (_fam : FamCode) (_a : Addr) (s : State) : Host.Outcome State Fault Refusal :=
  transact s (answer openBus)

/-- RD_OPEN at 0xC000-0xFFFF (R117). -/
def execRdOpenHigh (_fam : FamCode) (_a : Addr) (s : State) : Host.Outcome State Fault Refusal :=
  transact s (answer openBus)

end Sys2Proof.Machine
end

