-- ==== Sys2Proof/Machine/Dispatch.lean ====
section
/-! DEFINITION. The meaning of every transaction form: one arm per constructor of `Instr`. -/

namespace Sys2Proof.Machine

def exec (i : Instr) (s : State) : Host.Outcome State Fault Refusal :=
  match i with
  | .rdRom0 fam a => Sys2Proof.Machine.execRdRom0 fam a s
  | .rdRomx fam a => Sys2Proof.Machine.execRdRomx fam a s
  | .rdOpenLow fam a => Sys2Proof.Machine.execRdOpenLow fam a s
  | .rdXram fam a => Sys2Proof.Machine.execRdXram fam a s
  | .rdOpenHigh fam a => Sys2Proof.Machine.execRdOpenHigh fam a s
  | .wrIgnoreNoMbc a v => Sys2Proof.Machine.execWrIgnoreNoMbc a v s
  | .mbc1Ramen a v => Sys2Proof.Machine.execMbc1Ramen a v s
  | .mbc1Romb a v => Sys2Proof.Machine.execMbc1Romb a v s
  | .mbc1Ramb a v => Sys2Proof.Machine.execMbc1Ramb a v s
  | .mbc1Mode a v => Sys2Proof.Machine.execMbc1Mode a v s
  | .wrIgnoreMbc1 a v => Sys2Proof.Machine.execWrIgnoreMbc1 a v s
  | .mbc2Romb a v => Sys2Proof.Machine.execMbc2Romb a v s
  | .mbc2Ramen a v => Sys2Proof.Machine.execMbc2Ramen a v s
  | .wrIgnoreMbc2Low a v => Sys2Proof.Machine.execWrIgnoreMbc2Low a v s
  | .wrIgnoreMbc2High a v => Sys2Proof.Machine.execWrIgnoreMbc2High a v s
  | .mbc3Ramen a v => Sys2Proof.Machine.execMbc3Ramen a v s
  | .mbc3Romb a v => Sys2Proof.Machine.execMbc3Romb a v s
  | .mbc3Sel a v => Sys2Proof.Machine.execMbc3Sel a v s
  | .mbc3Latch a v => Sys2Proof.Machine.execMbc3Latch a v s
  | .wrIgnoreMbc3 a v => Sys2Proof.Machine.execWrIgnoreMbc3 a v s
  | .mbc5Ramen a v => Sys2Proof.Machine.execMbc5Ramen a v s
  | .mbc5RombLo a v => Sys2Proof.Machine.execMbc5RombLo a v s
  | .mbc5RombHi a v => Sys2Proof.Machine.execMbc5RombHi a v s
  | .mbc5Ramb a v => Sys2Proof.Machine.execMbc5Ramb a v s
  | .wrIgnoreMbc5Low a v => Sys2Proof.Machine.execWrIgnoreMbc5Low a v s
  | .wrIgnoreMbc5High a v => Sys2Proof.Machine.execWrIgnoreMbc5High a v s
  | .wrFatal5 a v => Sys2Proof.Machine.execWrFatal5 a v s
  | .wrFatal67 fam a v => Sys2Proof.Machine.execWrFatal67 fam a v s

end Sys2Proof.Machine
end

