-- ==== Sys2Proof/Machine/Step.lean ====
section
/-! DEFINITION. One step of the block: the next bus transaction, performed whole (00_scope.md R10;
20_memory.md R71, R76). -/

namespace Sys2Proof.Machine

/-- One step: take the next transaction, decode it, run it.  With none handed over there is no move. -/
def step (s : State) : Host.Outcome State Fault Refusal :=
  match fetch s with
  | none => .refused .noTransaction
  | some (i, s') => exec i s'

/-- The state whose next step runs the transaction of the word `w`: the host hands it over next, to a block of
the word's family (log entry 4).  A number that is no TXN28 word hands over nothing. -/
def State.withFetchWord (s : State) (nbits w : Nat) : State :=
  if w % 2 ^ nbits < 2 ^ 28 then handOver (BitVec.ofNat 28 (w % 2 ^ nbits)) s else s

end Sys2Proof.Machine
end

