-- ==== Sys2Proof/Machine/Assembler.lean ====
section
/-! DEFINITION. The spec's text form of transactions and its pseudo-transactions (30_encoding.md R103, R104;
92_eei_decisions.md D20).  They are no forms of the block: a pseudo-transaction is the list of writes it
expands to. -/

namespace Sys2Proof.Machine

/-- A hexadecimal digit. -/
def hexDigit (n : Nat) : Char := if n < 10 then Char.ofNat (48 + n) else Char.ofNat (55 + n)

/-- `0x` and two digits. -/
def hexByte (v : Byte) : List Char := ['0', 'x', hexDigit (v.toNat / 16), hexDigit (v.toNat % 16)]

/-- `0x` and four digits. -/
def hexAddr (a : Addr) : List Char :=
  ['0', 'x', hexDigit (a.toNat / 4096), hexDigit (a.toNat / 256 % 16),
    hexDigit (a.toNat / 16 % 16), hexDigit (a.toNat % 16)]

/-- `RD addr` or `WR addr, val` (R103). -/
def asmText : BusTxn → List Char
  | .read a => ['R', 'D', ' '] ++ hexAddr a
  | .write a din _ => ['W', 'R', ' '] ++ hexAddr a ++ [',', ' '] ++ hexByte din

/-- `.fam X`, stated once per program (R103). -/
def famText : Fam → List Char
  | .noMbc => ['.', 'f', 'a', 'm', ' ', 'N', 'O', 'N', 'E']
  | .mbc1 => ['.', 'f', 'a', 'm', ' ', 'M', 'B', 'C', '1']
  | .mbc2 => ['.', 'f', 'a', 'm', ' ', 'M', 'B', 'C', '2']
  | .mbc3 => ['.', 'f', 'a', 'm', ' ', 'M', 'B', 'C', '3']
  | .mbc5 => ['.', 'f', 'a', 'm', ' ', 'M', 'B', 'C', '5']
  | .unsupported => ['.', 'f', 'a', 'm', ' ', 'U', 'N', 'S', 'U', 'P', 'P', 'O', 'R', 'T', 'E', 'D']

/-- RAMON: `WR 0x0000, 0x0A` (R104). -/
def pseudoRamon (c : ClockSample) : List BusTxn := [.write 0x0000 0x0A c]

/-- RAMOFF: `WR 0x0000, 0x00` (R104). -/
def pseudoRamoff (c : ClockSample) : List BusTxn := [.write 0x0000 0x00 c]

/-- LATCH: `WR 0x6000, 0x00` then `WR 0x6000, 0x01` (R104), with the sample each write brings. -/
def pseudoLatch (c0 c1 : ClockSample) : List BusTxn := [.write 0x6000 0x00 c0, .write 0x6000 0x01 c1]

end Sys2Proof.Machine
end

