-- ==== Sys2Proof/Safety.lean ====
section
/-! DEFINITION. When a transaction has a step, what it means for two states to agree on `S`, and the invariant
of the block, in the terms the statements use. -/

namespace Sys2Proof.Machine

/-- A transaction has a step: the configuration was accepted (10_state.md R51) and `S.stop` = RUNNING
(60_exceptions.md R252). -/
structure State.Ready (s : State) : Prop where
  cfgOk : cfgOk s.cfg = true
  running : s.stop = .running

/-- The two states hold the same Register Bank, bank indices and RTC file: `S` but for `S.stop`. -/
def State.SameRegisters (s t : State) : Prop :=
  t.reg = s.reg ∧ t.currentRomBank = s.currentRomBank ∧ t.currentRamBank = s.currentRamBank ∧ t.rtc = s.rtc

/-- Every byte of the ROM image reads alike in the two states (20_memory.md R65). -/
def State.SameRom (s t : State) : Prop :=
  ∀ (bank : Nat) (off : RomOff), romByte t.cfg bank off = romByte s.cfg bank off

/-- How many values a register can hold under a family: stored widths (10_state.md R32 to R39), and 1 where no
rule of the family writes it (10_state.md R52). -/
def regLimit (f : Fam) : RegName → Nat
  | .ramEnable => match f with
    | .noMbc | .unsupported => 1
    | .mbc1 | .mbc2 | .mbc3 | .mbc5 => 16
  | .romBankNumber => match f with
    | .noMbc | .unsupported => 1
    | .mbc2 => 16
    | .mbc1 | .mbc3 => 32
    | .mbc5 => 256
  | .highRomBankBit => match f with
    | .noMbc | .unsupported | .mbc1 | .mbc2 | .mbc3 => 1
    | .mbc5 => 2
  | .ramBankNumber => match f with
    | .noMbc | .unsupported | .mbc2 => 1
    | .mbc1 | .mbc3 => 4
    | .mbc5 => 256
  | .rtcRegisterNumber => match f with
    | .noMbc | .unsupported | .mbc1 | .mbc2 | .mbc5 => 1
    | .mbc3 => 13
  | .rtcSelectionMode => match f with
    | .noMbc | .unsupported | .mbc1 | .mbc2 | .mbc5 => 1
    | .mbc3 => 3
  | .latchTrigger => match f with
    | .noMbc | .unsupported | .mbc1 | .mbc2 | .mbc5 => 1
    | .mbc3 => 256
  | .bankingMode => match f with
    | .noMbc | .unsupported | .mbc2 | .mbc3 | .mbc5 => 1
    | .mbc1 => 2

/-- The RTC file is as before any latch, or as one latch left it: all five entries from one sample
(43_write_mbc3_rtc.md R177, R178). -/
def RtcFile.legal (f : RtcFile) : Prop := f = RtcFile.unlatched ∨ ∃ c : ClockSample, f = rtcOfSample c

/-- The invariant of the block. -/
structure State.Inv (s : State) : Prop where
  /-- The configuration passes its checks (10_state.md R51). -/
  cfg : cfgOk s.cfg = true
  /-- Every register holds a value its family can store (10_state.md R32 to R39, R52). -/
  widths : ∀ r : RegName, (s.reg.get r).toNat < regLimit (famOf s.cfg) r
  /-- RTC mode has an index of the RTC file selected (10_state.md R36). -/
  rtcIndex : s.reg.rtcSelectionMode = selRtc → 0x08 ≤ s.reg.rtcRegisterNumber.toNat
  /-- `currentRomBank` is what its registers give, or the reset mapping of bank 1 (10_state.md R43 case a). -/
  romBank : computeRomBank s.cfg s.reg = some s.currentRomBank ∨
    (s.currentRomBank = 1 ∧ s.reg.romBankNumber = 0 ∧ s.reg.highRomBankBit = 0)
  /-- Under MBC1 the reset mapping is also what the registers give (46_bank_index.md R222). -/
  romBankMbc1 : famOf s.cfg = .mbc1 → s.currentRomBank = computeRomBankMbc1 s.reg
  /-- `currentRamBank` is 0 or the RAM bank register (46_bank_index.md R230 to R235). -/
  ramBank : s.currentRamBank = 0 ∨ s.currentRamBank = s.reg.ramBankNumber.toNat
  /-- It is stale only under MBC1 while RAM is disabled, and under MBC3 outside RAM selection
  (10_state.md R43 cases b and c). -/
  ramBankFresh : s.currentRamBank = computeRamBank s.cfg s.reg ∨
    (famOf s.cfg = .mbc1 ∧ isRamEnabled s.reg = false) ∨
    (famOf s.cfg = .mbc3 ∧ s.reg.rtcSelectionMode ≠ selRam)
  /-- Without more than 8 KB of RAM, MBC1 maps RAM bank 0 only (46_bank_index.md R231). -/
  ramBankSmall : famOf s.cfg = .mbc1 → s.cfg.ramGt8KB = false → s.currentRamBank = 0
  /-- The RTC file holds one sample or none, and is latched under MBC3 only (10_state.md R44). -/
  rtcLegal : s.rtc.legal
  rtcFamily : famOf s.cfg ≠ .mbc3 → s.rtc = RtcFile.unlatched
  /-- Only an unsupported family stops as FATAL (60_exceptions.md R251). -/
  fatal : s.stop = .fatal → famOf s.cfg = .unsupported

/-- The family a write form belongs to; `none` for a read, whose form exists under any (30_encoding.md R96). -/
def formFamily : Instr → Option Fam
  | .rdRom0 _ _ | .rdRomx _ _ | .rdOpenLow _ _ | .rdXram _ _ | .rdOpenHigh _ _ => none
  | .wrIgnoreNoMbc _ _ => some .noMbc
  | .mbc1Ramen _ _ | .mbc1Romb _ _ | .mbc1Ramb _ _ | .mbc1Mode _ _ | .wrIgnoreMbc1 _ _ => some .mbc1
  | .mbc2Romb _ _ | .mbc2Ramen _ _ | .wrIgnoreMbc2Low _ _ | .wrIgnoreMbc2High _ _ => some .mbc2
  | .mbc3Ramen _ _ | .mbc3Romb _ _ | .mbc3Sel _ _ | .mbc3Latch _ _ | .wrIgnoreMbc3 _ _ => some .mbc3
  | .mbc5Ramen _ _ | .mbc5RombLo _ _ | .mbc5RombHi _ _ | .mbc5Ramb _ _ => some .mbc5
  | .wrIgnoreMbc5Low _ _ | .wrIgnoreMbc5High _ _ => some .mbc5
  | .wrFatal5 _ _ | .wrFatal67 _ _ _ => some .unsupported

/-- The registers a form stores to (30_encoding.md R97, the column `register`; MBC3_SEL by R163). -/
def storesTo : Instr → List RegName
  | .rdRom0 _ _ | .rdRomx _ _ | .rdOpenLow _ _ | .rdXram _ _ | .rdOpenHigh _ _ => []
  | .mbc1Ramen _ _ | .mbc2Ramen _ _ | .mbc3Ramen _ _ | .mbc5Ramen _ _ => [.ramEnable]
  | .mbc1Romb _ _ | .mbc2Romb _ _ | .mbc3Romb _ _ | .mbc5RombLo _ _ => [.romBankNumber]
  | .mbc1Ramb _ _ | .mbc5Ramb _ _ => [.ramBankNumber]
  | .mbc1Mode _ _ => [.bankingMode]
  | .mbc3Sel _ v =>
    if v.toNat ≤ 3 then [.rtcSelectionMode, .ramBankNumber]
    else if 8 ≤ v.toNat ∧ v.toNat ≤ 12 then [.rtcSelectionMode, .rtcRegisterNumber]
    else [.rtcSelectionMode]
  | .mbc3Latch _ _ => [.latchTrigger]
  | .mbc5RombHi _ _ => [.highRomBankBit]
  | .wrIgnoreNoMbc _ _ | .wrIgnoreMbc1 _ _ | .wrIgnoreMbc2Low _ _ | .wrIgnoreMbc2High _ _ => []
  | .wrIgnoreMbc3 _ _ | .wrIgnoreMbc5Low _ _ | .wrIgnoreMbc5High _ _ => []
  | .wrFatal5 _ _ | .wrFatal67 _ _ _ => []

/-- Whether a form recomputes `currentRomBank` (46_bank_index.md R237). -/
def recomputesRom : Instr → Bool
  | .mbc1Romb _ _ | .mbc1Ramb _ _ | .mbc2Romb _ _ | .mbc3Romb _ _ => true
  | .mbc5RombLo _ _ | .mbc5RombHi _ _ => true
  | .rdRom0 _ _ | .rdRomx _ _ | .rdOpenLow _ _ | .rdXram _ _ | .rdOpenHigh _ _ => false
  | .mbc1Ramen _ _ | .mbc1Mode _ _ | .mbc2Ramen _ _ | .mbc3Ramen _ _ | .mbc3Sel _ _ => false
  | .mbc3Latch _ _ | .mbc5Ramen _ _ | .mbc5Ramb _ _ => false
  | .wrIgnoreNoMbc _ _ | .wrIgnoreMbc1 _ _ | .wrIgnoreMbc2Low _ _ | .wrIgnoreMbc2High _ _ => false
  | .wrIgnoreMbc3 _ _ | .wrIgnoreMbc5Low _ _ | .wrIgnoreMbc5High _ _ => false
  | .wrFatal5 _ _ | .wrFatal67 _ _ _ => false

/-- Whether a form, run with the registers `g`, recomputes `currentRamBank` (46_bank_index.md R237). -/
def recomputesRam (g : RegBank) : Instr → Bool
  | .mbc1Ramen _ _ | .mbc1Ramb _ _ | .mbc2Ramen _ _ | .mbc3Ramen _ _ | .mbc5Ramen _ _ => true
  | .mbc5Ramb _ _ => true
  | .mbc1Mode _ _ => isRamEnabled g
  | .mbc3Sel _ v => decide (v.toNat ≤ 3)
  | .rdRom0 _ _ | .rdRomx _ _ | .rdOpenLow _ _ | .rdXram _ _ | .rdOpenHigh _ _ => false
  | .mbc1Romb _ _ | .mbc2Romb _ _ | .mbc3Romb _ _ | .mbc3Latch _ _ => false
  | .mbc5RombLo _ _ | .mbc5RombHi _ _ => false
  | .wrIgnoreNoMbc _ _ | .wrIgnoreMbc1 _ _ | .wrIgnoreMbc2Low _ _ | .wrIgnoreMbc2High _ _ => false
  | .wrIgnoreMbc3 _ _ | .wrIgnoreMbc5Low _ _ | .wrIgnoreMbc5High _ _ => false
  | .wrFatal5 _ _ | .wrFatal67 _ _ _ => false

end Sys2Proof.Machine
end

