-- ==== Sys2Proof/Certificates/Slice0/Obligations.lean ====
section
/-! DEFINITION. The statements for the provers, one `def Obligations.<Name> : Prop` each.
`dout := none, romPort := none` says that a transaction drives no byte and presents no ROM bank. -/

open Sys2Proof Sys2Proof.Machine

/-! ## Encoding and decode (30_encoding.md) -/

/-- Decoding the word of a well-formed form gives the form back, with every operand. -/
def Obligations.DecodeInvertsEncode : Prop :=
  ∀ i : Instr, i.wf = true → decode (encode i) = i

/-- Every word decodes to a well-formed form; a write word is the encoding of its form, and so is a read word
whose `V` is 0. -/
def Obligations.WordsDecodeToWellFormedForms : Prop :=
  ∀ t : Txn28, (decode t).wf = true ∧
    (dirField t = 1 → encode (decode t) = t) ∧
    (dirField t = 0 → valueField t = 0 → encode (decode t) = t)

/-- R95: exactly one row of the opcode table matches a word, it is the row of the form the decoder reads, and its
mnemonic is that form's; the masks together use only T[27:25], T[24], T[23:20] and T[16]. -/
def Obligations.ExactlyOneTableRowMatches : Prop :=
  (∀ t : Txn28, ∃ r : OpcodeRow,
    opcodeTable[instrRow (decode t)]? = some r ∧ rowMatches r t = true ∧
    r.mnemonic = instrMnemonic (decode t) ∧
    ∀ (k : Nat) (q : OpcodeRow), opcodeTable[k]? = some q → rowMatches q t = true → k = instrRow (decode t)) ∧
  (opcodeTable.foldl (fun m r => m ||| r.mask) 0 : Txn28) = 0xFF10000

/-- R96, by address ranges: reads do not depend on the family; writes go by the family first. -/
def Obligations.DecodeFollowsTheMap : Prop :=
  ∀ (fam : FamCode) (a : Addr) (v : Byte),
    decode (txn28 fam 0 a v) =
      (if a.toNat < 0x4000 then .rdRom0 fam a
       else if a.toNat < 0x8000 then .rdRomx fam a
       else if a.toNat < 0xA000 then .rdOpenLow fam a
       else if a.toNat < 0xC000 then .rdXram fam a
       else .rdOpenHigh fam a) ∧
    decode (txn28 0 1 a v) = .wrIgnoreNoMbc a v ∧
    decode (txn28 1 1 a v) =
      (if a.toNat < 0x2000 then .mbc1Ramen a v
       else if a.toNat < 0x4000 then .mbc1Romb a v
       else if a.toNat < 0x6000 then .mbc1Ramb a v
       else if a.toNat < 0x8000 then .mbc1Mode a v
       else .wrIgnoreMbc1 a v) ∧
    decode (txn28 2 1 a v) =
      (if a.toNat < 0x4000 then (if a.toNat / 0x100 % 2 = 1 then .mbc2Romb a v else .mbc2Ramen a v)
       else if a.toNat < 0x8000 then .wrIgnoreMbc2Low a v
       else .wrIgnoreMbc2High a v) ∧
    decode (txn28 3 1 a v) =
      (if a.toNat < 0x2000 then .mbc3Ramen a v
       else if a.toNat < 0x4000 then .mbc3Romb a v
       else if a.toNat < 0x6000 then .mbc3Sel a v
       else if a.toNat < 0x8000 then .mbc3Latch a v
       else .wrIgnoreMbc3 a v) ∧
    decode (txn28 4 1 a v) =
      (if a.toNat < 0x2000 then .mbc5Ramen a v
       else if a.toNat < 0x3000 then .mbc5RombLo a v
       else if a.toNat < 0x4000 then .mbc5RombHi a v
       else if a.toNat < 0x6000 then .mbc5Ramb a v
       else if a.toNat < 0x8000 then .wrIgnoreMbc5Low a v
       else .wrIgnoreMbc5High a v) ∧
    decode (txn28 5 1 a v) = .wrFatal5 a v ∧
    decode (txn28 6 1 a v) = .wrFatal67 6 a v ∧
    decode (txn28 7 1 a v) = .wrFatal67 7 a v

/-- Words of the programs of 95_test_vectors.md section 3, as numbers. -/
def Obligations.WrittenOutWordsDecode : Prop :=
  decode 0x2001000 = .rdRom0 1 0x0010 ∧
  decode 0x6400100 = .rdRomx 3 0x4001 ∧
  decode 0x6BFFF00 = .rdXram 3 0xBFFF ∧
  decode 0x2800000 = .rdOpenLow 1 0x8000 ∧
  decode 0x1200005 = .wrIgnoreNoMbc 0x2000 0x05 ∧
  decode 0x3600001 = .mbc1Mode 0x6000 0x01 ∧
  decode 0x521001F = .mbc2Romb 0x2100 0x1F ∧
  decode 0x5200007 = .mbc2Ramen 0x2000 0x07 ∧
  decode 0x740000B = .mbc3Sel 0x4000 0x0B ∧
  decode 0x93000FE = .mbc5RombHi 0x3000 0xFE ∧
  decode 0xB200001 = .wrFatal5 0x2000 0x01

/-! ## The step -/

/-- A step takes the next transaction, whose word carries `CFG.FAM`, and is `exec` of the form that word decodes
to; a write brings its clock sample to the input. -/
def Obligations.StepRunsTheDecodedTransaction : Prop :=
  ∀ (s : State) (a : Addr) (v : Byte) (c : ClockSample) (rest : List BusTxn),
    (s.bus = .read a :: rest →
      step s = exec (decode (txn28 s.cfg.famCode 0 a 0)) { s with bus := rest }) ∧
    (s.bus = .write a v c :: rest →
      step s = exec (decode (txn28 s.cfg.famCode 1 a v)) { s with bus := rest, clk := c })

/-- The word placed by `withFetchWord` is the very next thing a step runs (log entry 4: the model's own way of
handing a transaction over). -/
def Obligations.HandedOverWordRunsNext : Prop :=
  ∀ (s : State) (w : Nat), w < 2 ^ 28 → ∃ i : Instr,
    decodeTableWord 32 w = some i ∧
    step (s.withFetchWord 32 w) =
      exec i { s with cfg := { s.cfg with famCode := famField (BitVec.ofNat 28 w) } }

/-- R61: while the block runs, every transaction at every address has a step.  A read answers a byte, or is
mapped past the ROM image and stops; a write answers no byte. -/
def Obligations.EveryBusAddressIsDefined : Prop :=
  ∀ (s : State) (a : Addr) (rest : List BusTxn), s.Ready →
    (s.bus = .read a :: rest → ∃ t : State, step s = .next t ∧ t.bus = rest ∧
      ((t.stop = .running ∧ t.dout.isSome = true) ∨
       (t.dout = none ∧ ∃ b : Nat, s.cfg.romBankCount ≤ b ∧ t.stop = .faulted (.romBankOutOfRange b a)))) ∧
    (∀ (v : Byte) (c : ClockSample), s.bus = .write a v c :: rest →
      ∃ t : State, step s = .next t ∧ t.bus = rest ∧ t.dout = none ∧
        (t.stop = .running ∨ (t.stop = .fatal ∧ famOf s.cfg = .unsupported)))

/-- A stopped block has no step: every form that its family allows faults, with the stop's own fault, and no step
ends in a next state; a block with no transaction handed over does not move (log entry 4). -/
def Obligations.StoppedBlockHasNoStep : Prop :=
  (∀ (i : Instr) (s : State), cfgOk s.cfg = true → (∀ f, formFamily i = some f → famOf s.cfg = f) →
    (s.stop = .fatal → exec i s = .fault .stoppedFatal) ∧
    (∀ r, s.stop = .faulted r → exec i s = .fault (.stoppedFaulted r))) ∧
  (∀ s t : State, s.stop ≠ .running → step s ≠ .next t) ∧
  (∀ s : State, s.bus = [] → step s = .refused .noTransaction)

/-! ## Construction and the invariant (10_state.md, 70_reset_and_hazards.md) -/

/-- The state after construction, field by field.  The clock input and the draw counter are the model's
(log entries 7 and 8) and are left out. -/
def Obligations.ConstructionLeavesTheResetValues : Prop :=
  ∀ cfg : Cfg, cfgOk cfg = true → ∃ s : State, construct cfg = .next s ∧
    (∀ r : RegName, s.reg.get r = 0) ∧
    s.currentRomBank = 1 ∧ s.currentRamBank = 0 ∧
    s.rtc = ⟨.unlatched, .unlatched, .unlatched, .unlatched, .unlatched⟩ ∧
    s.stop = .running ∧ s.cfg = cfg ∧ s.bus = [] ∧ s.dout = none ∧ s.romPort = none ∧ s.Ready

/-- A configuration that fails a check of R51 is refused by construction.  The last clause, that no transaction of a
state that holds such a configuration runs, is the model's own (log entry 15): R51 speaks of the time before the
first transaction, and construction gives no such state. -/
def Obligations.BadConfigurationIsRefused : Prop :=
  ∀ cfg : Cfg,
    (cfg.romBankCount = 0 ∨ (cfg.ramGt8KB = true ∧ cfg.hasRam = false) ∨
      (famOf cfg = .mbc5 ∧ cfg.mbc5RomFormula = .literal ∧ cfg.mbc5LiteralFn = none)) →
    construct cfg = .refused .badConfiguration ∧
    ∀ s t : State, s.cfg = cfg → step s ≠ .next t

/-- The state after reset meets the invariant, and so does the state after any construction. -/
def Obligations.ConstructedStatesMeetTheInvariant : Prop :=
  State.reset.Inv ∧ ∀ (cfg : Cfg) (s : State), construct cfg = .next s → s.Inv

/-- Every step keeps the invariant, from every state that meets it. -/
def Obligations.EveryStepKeepsTheInvariant : Prop :=
  ∀ s t : State, s.Inv → step s = .next t → t.Inv

/-- The values `currentRomBank` can take, family by family, in every state that meets the invariant. -/
def Obligations.RomBankRangeByFamily : Prop :=
  ∀ s : State, s.Inv →
    (famOf s.cfg = .mbc1 → 1 ≤ s.currentRomBank ∧ s.currentRomBank ≤ 127 ∧ s.currentRomBank % 32 ≠ 0) ∧
    (famOf s.cfg = .mbc2 → s.currentRomBank ≤ 15) ∧
    (famOf s.cfg = .mbc3 → s.currentRomBank ≤ 31) ∧
    (famOf s.cfg = .mbc5 → s.cfg.mbc5RomFormula = .corrected → s.currentRomBank ≤ 511) ∧
    (famOf s.cfg = .mbc5 → s.cfg.mbc5RomFormula = .literal →
      s.currentRomBank = 1 ∨ ∃ (f : Vector Nat 256) (k : Fin 256),
        s.cfg.mbc5LiteralFn = some f ∧ s.currentRomBank = f.get k) ∧
    (famOf s.cfg = .noMbc ∨ famOf s.cfg = .unsupported → s.currentRomBank = 1)

/-! ## Reads (40_read_path.md) -/

/-- RD_ROMX (R111) reads `currentRomBank` at offset `A[13:0]`, or stops where the image lacks that bank.  That a read
which stops presents its bank and offset, the `romPort` of the last clause, is the model's choice (log entry 10). -/
def Obligations.SwitchableWindowRead : Prop :=
  ∀ (fam : FamCode) (a : Addr) (v : Byte) (s : State), s.Ready →
    (0x4000 ≤ a.toNat → a.toNat ≤ 0x7FFF →
      decode (txn28 fam 0 a v) = .rdRomx fam a ∧ (a.extractLsb' 0 14).toNat = a.toNat - 0x4000) ∧
    (s.currentRomBank < s.cfg.romBankCount →
      exec (.rdRomx fam a) s = .next { s with
        dout := some (romByte s.cfg s.currentRomBank (a.extractLsb' 0 14))
        romPort := some ⟨s.currentRomBank, a.extractLsb' 0 14⟩ }) ∧
    (s.cfg.romBankCount ≤ s.currentRomBank →
      exec (.rdRomx fam a) s = .next { s with
        stop := .faulted (.romBankOutOfRange s.currentRomBank a)
        dout := none
        romPort := some ⟨s.currentRomBank, a.extractLsb' 0 14⟩ })

/-- RD_ROM0 (R112, R113) reads bank 0 whatever `currentRomBank` is, and never stops; under the MBC1 large-ROM quirk it
reads bank `RAM_BANK_NUMBER << 5`, or stops where the image lacks that bank.  That a read which stops presents its bank
and offset, the `romPort` of the last clause, is the model's choice (log entry 10). -/
def Obligations.FixedWindowRead : Prop :=
  ∀ (fam : FamCode) (a : Addr) (v : Byte) (s : State), s.Ready →
    (a.toNat ≤ 0x3FFF →
      decode (txn28 fam 0 a v) = .rdRom0 fam a ∧ (a.extractLsb' 0 14).toNat = a.toNat) ∧
    (¬(famOf s.cfg = .mbc1 ∧ s.reg.bankingMode = 1 ∧ s.cfg.romGe1MB = true ∧ s.reg.romBankNumber = 0) →
      exec (.rdRom0 fam a) s = .next { s with
        dout := some (romByte s.cfg 0 (a.extractLsb' 0 14))
        romPort := some ⟨0, a.extractLsb' 0 14⟩ }) ∧
    (famOf s.cfg = .mbc1 → s.reg.bankingMode = 1 → s.cfg.romGe1MB = true → s.reg.romBankNumber = 0 →
      (s.reg.ramBankNumber.toNat * 32 < s.cfg.romBankCount →
        exec (.rdRom0 fam a) s = .next { s with
          dout := some (romByte s.cfg (s.reg.ramBankNumber.toNat * 32) (a.extractLsb' 0 14))
          romPort := some ⟨s.reg.ramBankNumber.toNat * 32, a.extractLsb' 0 14⟩ }) ∧
      (s.cfg.romBankCount ≤ s.reg.ramBankNumber.toNat * 32 →
        exec (.rdRom0 fam a) s = .next { s with
          stop := .faulted (.romBankOutOfRange (s.reg.ramBankNumber.toNat * 32) a)
          dout := none
          romPort := some ⟨s.reg.ramBankNumber.toNat * 32, a.extractLsb' 0 14⟩ }))

/-- RD_XRAM, at every address: 0xFF outside an RTC read; in RTC mode the selected entry, or a fresh free value
where the entry is UNLATCHED.  The last clause, an index that names no entry, is the model's choice
(log entry 9). -/
def Obligations.RamRtcWindowRead : Prop :=
  ∀ (fam : FamCode) (a : Addr) (s : State), s.Ready →
    ((s.cfg.hasRam = false ∨ famOf s.cfg ≠ .mbc3 ∨ s.reg.rtcSelectionMode ≠ 2) →
      exec (.rdXram fam a) s = .next { s with dout := some 0xFF, romPort := none }) ∧
    (s.cfg.hasRam = true → famOf s.cfg = .mbc3 → s.reg.rtcSelectionMode = 2 →
      (∀ v : Byte,
        ((s.reg.rtcRegisterNumber = 0x08 ∧ s.rtc.seconds = .latched v) ∨
         (s.reg.rtcRegisterNumber = 0x09 ∧ s.rtc.minutes = .latched v) ∨
         (s.reg.rtcRegisterNumber = 0x0A ∧ s.rtc.hours = .latched v) ∨
         (s.reg.rtcRegisterNumber = 0x0B ∧ s.rtc.dayLow = .latched v) ∨
         (s.reg.rtcRegisterNumber = 0x0C ∧ s.rtc.dayHigh = .latched v)) →
        exec (.rdXram fam a) s = .next { s with dout := some v, romPort := none }) ∧
      (((s.reg.rtcRegisterNumber = 0x08 ∧ s.rtc.seconds = .unlatched) ∨
        (s.reg.rtcRegisterNumber = 0x09 ∧ s.rtc.minutes = .unlatched) ∨
        (s.reg.rtcRegisterNumber = 0x0A ∧ s.rtc.hours = .unlatched) ∨
        (s.reg.rtcRegisterNumber = 0x0B ∧ s.rtc.dayLow = .unlatched) ∨
        (s.reg.rtcRegisterNumber = 0x0C ∧ s.rtc.dayHigh = .unlatched) ∨
        s.reg.rtcRegisterNumber.toNat < 0x08 ∨ 0x0C < s.reg.rtcRegisterNumber.toNat) →
        exec (.rdXram fam a) s = .next { s with
          dout := some (Config.draw8 s.draws), romPort := none, draws := s.draws + 1 }))

/-- RD_OPEN: 0xFF in both open regions, under every family and in every running state. -/
def Obligations.OpenRegionRead : Prop :=
  ∀ (fam : FamCode) (a : Addr) (s : State), s.Ready →
    exec (.rdOpenLow fam a) s = .next { s with dout := some 0xFF, romPort := none } ∧
    exec (.rdOpenHigh fam a) s = .next { s with dout := some 0xFF, romPort := none }

/-- R118: no read changes `S`; the one exception is the stop of a read that faults.  Its only outputs are `DOUT`
and, for a ROM read, what it presents to the image. -/
def Obligations.ReadsChangeNoState : Prop :=
  ∀ (i : Instr) (s t : State), instrIsWrite i = false → exec i s = .next t →
    s.SameRegisters t ∧ t.cfg = s.cfg ∧ t.bus = s.bus ∧ t.clk = s.clk ∧
    (t.stop = s.stop ∨ (t.dout = none ∧ ∃ b a, t.stop = .faulted (.romBankOutOfRange b a))) ∧
    (t.romPort.isSome = true → ∃ fam a, i = .rdRom0 fam a ∨ i = .rdRomx fam a)

/-- The four steps of the document's read, over the whole address space: decode and meaning together. -/
def Obligations.ReadFollowsTheFourSteps : Prop :=
  ∀ (s : State) (a : Addr) (rest : List BusTxn), s.Ready → s.bus = .read a :: rest →
    (0x4000 ≤ a.toNat → a.toNat ≤ 0x7FFF → s.currentRomBank < s.cfg.romBankCount →
      ∃ t, step s = .next t ∧
        t.dout = some (romByte s.cfg s.currentRomBank (BitVec.ofNat 14 (a.toNat - 0x4000)))) ∧
    (a.toNat ≤ 0x3FFF →
      (famOf s.cfg = .mbc1 ∧ s.reg.bankingMode = 1 ∧ s.cfg.romGe1MB = true ∧ s.reg.romBankNumber = 0 →
        s.reg.ramBankNumber.toNat <<< 5 < s.cfg.romBankCount →
        ∃ t, step s = .next t ∧
          t.dout = some (romByte s.cfg (s.reg.ramBankNumber.toNat <<< 5) (BitVec.ofNat 14 a.toNat))) ∧
      (¬(famOf s.cfg = .mbc1 ∧ s.reg.bankingMode = 1 ∧ s.cfg.romGe1MB = true ∧ s.reg.romBankNumber = 0) →
        ∃ t, step s = .next t ∧ t.dout = some (romByte s.cfg 0 (BitVec.ofNat 14 a.toNat)))) ∧
    (0xA000 ≤ a.toNat → a.toNat ≤ 0xBFFF → s.cfg.hasRam = true → famOf s.cfg = .mbc3 →
      s.reg.rtcSelectionMode = 2 →
      ∀ v : Byte, s.rtc.entry s.reg.rtcRegisterNumber = .latched v → ∃ t, step s = .next t ∧ t.dout = some v) ∧
    (0x8000 ≤ a.toNat →
      ¬(0xA000 ≤ a.toNat ∧ a.toNat ≤ 0xBFFF ∧ s.cfg.hasRam = true ∧ famOf s.cfg = .mbc3 ∧
        s.reg.rtcSelectionMode = 2) →
      ∃ t, step s = .next t ∧ t.dout = some 0xFF)

/-- Under NONE and UNSUPPORTED, in every state that meets the invariant, the switchable window reads bank 1, the
fixed window bank 0, and every other address 0xFF. -/
def Obligations.NoMbcAndUnsupportedReads : Prop :=
  ∀ (fam : FamCode) (a : Addr) (s : State), s.Inv → s.stop = .running →
    (famOf s.cfg = .noMbc ∨ famOf s.cfg = .unsupported) →
    (1 < s.cfg.romBankCount → ∃ t, exec (.rdRomx fam a) s = .next t ∧
      t.dout = some (romByte s.cfg 1 (romOffset a))) ∧
    (∃ t, exec (.rdRom0 fam a) s = .next t ∧ t.dout = some (romByte s.cfg 0 (romOffset a))) ∧
    (∃ t, exec (.rdXram fam a) s = .next t ∧ t.dout = some 0xFF)

/-- What no read depends on: RAM_ENABLE, HIGH_ROM_BANK_BIT, LATCH_TRIGGER and `currentRamBank`.  The byte of a read
that draws a free value is not compared. -/
def Obligations.ReadsIgnoreRamEnableAndRamBank : Prop :=
  ∀ (i : Instr) (s t : State) (x y z : Byte) (n : Nat), instrIsWrite i = false → exec i s = .next t →
    ∃ t' : State,
      exec i { s with
        reg := { s.reg with ramEnable := x, highRomBankBit := y, latchTrigger := z }
        currentRamBank := n } = .next t' ∧
      (t.draws = s.draws → t'.dout = t.dout) ∧ t'.draws = t.draws ∧
      t'.romPort = t.romPort ∧ t'.stop = t.stop

/-! ## MBC1 writes (41_write_mbc1.md) -/

/-- R131: MBC1_RAMEN. -/
def Obligations.Mbc1RamEnableWrite : Prop :=
  ∀ (a : Addr) (v : Byte) (s : State), s.Ready → famOf s.cfg = .mbc1 →
    (a.toNat ≤ 0x1FFF → decode (txn28 1 1 a v) = .mbc1Ramen a v) ∧
    exec (.mbc1Ramen a v) s = .next { s with
      reg := { s.reg with ramEnable := v &&& 0x0F }
      currentRamBank :=
        if s.reg.bankingMode = 0 then 0 else if s.cfg.ramGt8KB = true then s.reg.ramBankNumber.toNat else 0
      dout := none, romPort := none }

/-- R132: MBC1_ROMB, with the zero-bank remap. -/
def Obligations.Mbc1RomBankWrite : Prop :=
  ∀ (a : Addr) (v : Byte) (s : State), s.Ready → famOf s.cfg = .mbc1 →
    (0x2000 ≤ a.toNat → a.toNat ≤ 0x3FFF → decode (txn28 1 1 a v) = .mbc1Romb a v) ∧
    exec (.mbc1Romb a v) s = .next { s with
      reg := { s.reg with romBankNumber := v &&& 0x1F }
      currentRomBank :=
        if (v &&& 0x1F).toNat = 0 then (s.reg.ramBankNumber.toNat <<< 5) + 1
        else (s.reg.ramBankNumber.toNat <<< 5) ||| (v &&& 0x1F).toNat
      dout := none, romPort := none }

/-- R133: MBC1_RAMB recomputes both bank indices. -/
def Obligations.Mbc1RamBankWrite : Prop :=
  ∀ (a : Addr) (v : Byte) (s : State), s.Ready → famOf s.cfg = .mbc1 →
    (0x4000 ≤ a.toNat → a.toNat ≤ 0x5FFF → decode (txn28 1 1 a v) = .mbc1Ramb a v) ∧
    exec (.mbc1Ramb a v) s = .next { s with
      reg := { s.reg with ramBankNumber := v &&& 0x03 }
      currentRomBank :=
        if s.reg.romBankNumber.toNat = 0 then ((v &&& 0x03).toNat <<< 5) + 1
        else ((v &&& 0x03).toNat <<< 5) ||| s.reg.romBankNumber.toNat
      currentRamBank :=
        if s.reg.bankingMode = 0 then 0 else if s.cfg.ramGt8KB = true then (v &&& 0x03).toNat else 0
      dout := none, romPort := none }

/-- R134: MBC1_MODE recomputes the RAM bank only while RAM is enabled. -/
def Obligations.Mbc1ModeWrite : Prop :=
  ∀ (a : Addr) (v : Byte) (s : State), s.Ready → famOf s.cfg = .mbc1 →
    (0x6000 ≤ a.toNat → a.toNat ≤ 0x7FFF → decode (txn28 1 1 a v) = .mbc1Mode a v) ∧
    exec (.mbc1Mode a v) s = .next { s with
      reg := { s.reg with bankingMode := v &&& 0x01 }
      currentRamBank :=
        if s.reg.ramEnable.toNat % 16 = 0x0A then
          (if v &&& 0x01 = 0 then 0 else if s.cfg.ramGt8KB = true then s.reg.ramBankNumber.toNat else 0)
        else s.currentRamBank
      dout := none, romPort := none }

/-! ## MBC2 writes (42_write_mbc2.md) -/

/-- R151: MBC2_ROMB, with `A[8]` = 1 and no zero-bank remap. -/
def Obligations.Mbc2RomBankWrite : Prop :=
  ∀ (a : Addr) (v : Byte) (s : State), s.Ready → famOf s.cfg = .mbc2 →
    (a.toNat ≤ 0x3FFF → a.toNat / 0x100 % 2 = 1 → decode (txn28 2 1 a v) = .mbc2Romb a v) ∧
    exec (.mbc2Romb a v) s = .next { s with
      reg := { s.reg with romBankNumber := v &&& 0x0F }
      currentRomBank := v.toNat % 16
      dout := none, romPort := none }

/-- MBC2_RAMEN, with `A[8]` = 0. -/
def Obligations.Mbc2RamEnableWrite : Prop :=
  ∀ (a : Addr) (v : Byte) (s : State), s.Ready → famOf s.cfg = .mbc2 →
    (a.toNat ≤ 0x3FFF → a.toNat / 0x100 % 2 = 0 → decode (txn28 2 1 a v) = .mbc2Ramen a v) ∧
    exec (.mbc2Ramen a v) s = .next { s with
      reg := { s.reg with ramEnable := v &&& 0x0F }
      currentRamBank := 0
      dout := none, romPort := none }

/-! ## MBC3 writes and the latch (43_write_mbc3_rtc.md) -/

/-- MBC3_RAMEN. -/
def Obligations.Mbc3RamEnableWrite : Prop :=
  ∀ (a : Addr) (v : Byte) (s : State), s.Ready → famOf s.cfg = .mbc3 →
    (a.toNat ≤ 0x1FFF → decode (txn28 3 1 a v) = .mbc3Ramen a v) ∧
    exec (.mbc3Ramen a v) s = .next { s with
      reg := { s.reg with ramEnable := v &&& 0x0F }
      currentRamBank := if s.reg.rtcSelectionMode = 1 then s.reg.ramBankNumber.toNat else 0
      dout := none, romPort := none }

/-- R162: MBC3_ROMB, with no zero-bank remap. -/
def Obligations.Mbc3RomBankWrite : Prop :=
  ∀ (a : Addr) (v : Byte) (s : State), s.Ready → famOf s.cfg = .mbc3 →
    (0x2000 ≤ a.toNat → a.toNat ≤ 0x3FFF → decode (txn28 3 1 a v) = .mbc3Romb a v) ∧
    exec (.mbc3Romb a v) s = .next { s with
      reg := { s.reg with romBankNumber := v &&& 0x1F }
      currentRomBank := v.toNat % 32
      dout := none, romPort := none }

/-- R163: MBC3_SEL.  The selection is stored as NONE = 0, RAM = 1, RTC = 2. -/
def Obligations.Mbc3SelectionWrite : Prop :=
  ∀ (a : Addr) (v : Byte) (s : State), s.Ready → famOf s.cfg = .mbc3 →
    (0x4000 ≤ a.toNat → a.toNat ≤ 0x5FFF → decode (txn28 3 1 a v) = .mbc3Sel a v) ∧
    (v.toNat ≤ 0x03 → exec (.mbc3Sel a v) s = .next { s with
      reg := { s.reg with rtcSelectionMode := 1, ramBankNumber := v }
      currentRamBank := v.toNat
      dout := none, romPort := none }) ∧
    (0x08 ≤ v.toNat → v.toNat ≤ 0x0C → exec (.mbc3Sel a v) s = .next { s with
      reg := { s.reg with rtcSelectionMode := 2, rtcRegisterNumber := v }
      dout := none, romPort := none }) ∧
    (0x03 < v.toNat ∧ v.toNat < 0x08 ∨ 0x0C < v.toNat → exec (.mbc3Sel a v) s = .next { s with
      reg := { s.reg with rtcSelectionMode := 0 }
      dout := none, romPort := none })

/-- R170 and R175: MBC3_LATCH samples the clock into the five entries on a 0 to 1 edge of the trigger, and stores
`V` always. -/
def Obligations.Mbc3LatchWrite : Prop :=
  ∀ (a : Addr) (v : Byte) (s : State), s.Ready → famOf s.cfg = .mbc3 →
    (0x6000 ≤ a.toNat → a.toNat ≤ 0x7FFF → decode (txn28 3 1 a v) = .mbc3Latch a v) ∧
    (s.reg.latchTrigger = 0 → v = 1 → exec (.mbc3Latch a v) s = .next { s with
      reg := { s.reg with latchTrigger := 1 }
      rtc := ⟨.latched s.clk.sec, .latched s.clk.min, .latched s.clk.hour,
        .latched (BitVec.ofNat 8 (s.clk.day % 256)), .latched (BitVec.ofNat 8 (s.clk.day / 256 % 2))⟩
      dout := none, romPort := none }) ∧
    (s.reg.latchTrigger ≠ 0 ∨ v ≠ 1 → exec (.mbc3Latch a v) s = .next { s with
      reg := { s.reg with latchTrigger := v }
      dout := none, romPort := none })

/-- Writing 0 and then 1 samples the clock that comes with the write of 1, whatever the trigger held; a further
write of 1 samples nothing. -/
def Obligations.LatchSequenceSamplesOnce : Prop :=
  ∀ (s : State) (a0 a1 a2 : Addr) (c0 c1 c2 : ClockSample), s.Ready → famOf s.cfg = .mbc3 →
    (∀ a ∈ [a0, a1, a2], 0x6000 ≤ a.toNat ∧ a.toNat ≤ 0x7FFF) →
    s.bus = [.write a0 0 c0, .write a1 1 c1, .write a2 1 c2] →
    ∃ t : State, core.run 3 s = .next t ∧ t.rtc = rtcOfSample c1 ∧ t.reg.latchTrigger = 1

/-- The RTC file changes only at an MBC3_LATCH whose edge holds, and then to the sample at the clock input. -/
def Obligations.RtcChangesOnlyAtALatch : Prop :=
  ∀ (i : Instr) (s t : State), exec i s = .next t → t.rtc ≠ s.rtc →
    ∃ a : Addr, i = .mbc3Latch a 1 ∧ famOf s.cfg = .mbc3 ∧ s.reg.latchTrigger = 0 ∧ t.rtc = rtcOfSample s.clk

/-! ## MBC5 writes (44_write_mbc5.md) -/

/-- MBC5_RAMEN. -/
def Obligations.Mbc5RamEnableWrite : Prop :=
  ∀ (a : Addr) (v : Byte) (s : State), s.Ready → famOf s.cfg = .mbc5 →
    (a.toNat ≤ 0x1FFF → decode (txn28 4 1 a v) = .mbc5Ramen a v) ∧
    exec (.mbc5Ramen a v) s = .next { s with
      reg := { s.reg with ramEnable := v &&& 0x0F }
      currentRamBank := s.reg.ramBankNumber.toNat
      dout := none, romPort := none }

/-- R192: MBC5_ROMB_LO stores all 8 bits; the bank is the nine-bit one under CORRECTED, and the open function of
the low byte under LITERAL. -/
def Obligations.Mbc5RomLowWrite : Prop :=
  ∀ (a : Addr) (v : Byte) (s : State), s.Ready → famOf s.cfg = .mbc5 →
    (0x2000 ≤ a.toNat → a.toNat ≤ 0x2FFF → decode (txn28 4 1 a v) = .mbc5RombLo a v) ∧
    (s.cfg.mbc5RomFormula = .corrected → exec (.mbc5RombLo a v) s = .next { s with
      reg := { s.reg with romBankNumber := v }
      currentRomBank := (s.reg.highRomBankBit.toNat <<< 8) ||| v.toNat
      dout := none, romPort := none }) ∧
    (∀ f : Vector Nat 256, s.cfg.mbc5RomFormula = .literal → s.cfg.mbc5LiteralFn = some f →
      exec (.mbc5RombLo a v) s = .next { s with
        reg := { s.reg with romBankNumber := v }
        currentRomBank := f[v.toNat]'(v.isLt)
        dout := none, romPort := none })

/-- R193: MBC5_ROMB_HI stores the low bit; under LITERAL it does not reach the bank. -/
def Obligations.Mbc5RomHighWrite : Prop :=
  ∀ (a : Addr) (v : Byte) (s : State), s.Ready → famOf s.cfg = .mbc5 →
    (0x3000 ≤ a.toNat → a.toNat ≤ 0x3FFF → decode (txn28 4 1 a v) = .mbc5RombHi a v) ∧
    (s.cfg.mbc5RomFormula = .corrected → exec (.mbc5RombHi a v) s = .next { s with
      reg := { s.reg with highRomBankBit := v &&& 0x01 }
      currentRomBank := v.toNat % 2 * 256 + s.reg.romBankNumber.toNat
      dout := none, romPort := none }) ∧
    (∀ f : Vector Nat 256, s.cfg.mbc5RomFormula = .literal → s.cfg.mbc5LiteralFn = some f →
      exec (.mbc5RombHi a v) s = .next { s with
        reg := { s.reg with highRomBankBit := v &&& 0x01 }
        currentRomBank := f[s.reg.romBankNumber.toNat]'(s.reg.romBankNumber.isLt)
        dout := none, romPort := none })

/-- R194: MBC5_RAMB stores all 8 bits, unmasked. -/
def Obligations.Mbc5RamBankWrite : Prop :=
  ∀ (a : Addr) (v : Byte) (s : State), s.Ready → famOf s.cfg = .mbc5 →
    (0x4000 ≤ a.toNat → a.toNat ≤ 0x5FFF → decode (txn28 4 1 a v) = .mbc5Ramb a v) ∧
    exec (.mbc5Ramb a v) s = .next { s with
      reg := { s.reg with ramBankNumber := v }
      currentRamBank := v.toNat
      dout := none, romPort := none }

/-! ## Ignored and fatal writes (45_write_dispatch.md, 60_exceptions.md) -/

/-- R212: every WR_IGNORE row leaves the state as it is. -/
def Obligations.IgnoredWritesChangeNothing : Prop :=
  ∀ (a : Addr) (v : Byte) (s : State), s.Ready →
    (famOf s.cfg = .noMbc →
      exec (.wrIgnoreNoMbc a v) s = .next { s with dout := none, romPort := none }) ∧
    (famOf s.cfg = .mbc1 →
      exec (.wrIgnoreMbc1 a v) s = .next { s with dout := none, romPort := none }) ∧
    (famOf s.cfg = .mbc2 →
      exec (.wrIgnoreMbc2Low a v) s = .next { s with dout := none, romPort := none } ∧
      exec (.wrIgnoreMbc2High a v) s = .next { s with dout := none, romPort := none }) ∧
    (famOf s.cfg = .mbc3 →
      exec (.wrIgnoreMbc3 a v) s = .next { s with dout := none, romPort := none }) ∧
    (famOf s.cfg = .mbc5 →
      exec (.wrIgnoreMbc5Low a v) s = .next { s with dout := none, romPort := none } ∧
      exec (.wrIgnoreMbc5High a v) s = .next { s with dout := none, romPort := none }) ∧
    (decode (txn28 0 1 a v) = .wrIgnoreNoMbc a v) ∧
    (0x8000 ≤ a.toNat →
      decode (txn28 1 1 a v) = .wrIgnoreMbc1 a v ∧ decode (txn28 2 1 a v) = .wrIgnoreMbc2High a v ∧
      decode (txn28 3 1 a v) = .wrIgnoreMbc3 a v ∧ decode (txn28 4 1 a v) = .wrIgnoreMbc5High a v) ∧
    (0x4000 ≤ a.toNat → a.toNat ≤ 0x7FFF → decode (txn28 2 1 a v) = .wrIgnoreMbc2Low a v) ∧
    (0x6000 ≤ a.toNat → a.toNat ≤ 0x7FFF → decode (txn28 4 1 a v) = .wrIgnoreMbc5Low a v)

/-- R211: with no MBC, a write at any address is a step that leaves everything but the queue, the clock input and
the outputs as it was, and the block still runs. -/
def Obligations.NoMbcWriteIsANoOp : Prop :=
  ∀ (s : State) (a : Addr) (v : Byte) (c : ClockSample) (rest : List BusTxn), s.Ready →
    famOf s.cfg = .noMbc → s.bus = .write a v c :: rest →
    step s = .next { s with bus := rest, clk := c, dout := none, romPort := none }

/-- R215 and R251: a write under an unsupported family, at any address and with any of its codes, is the fatal
stop, which sets `S.stop` and the `FATAL` output and changes nothing else. -/
def Obligations.UnsupportedWriteIsFatal : Prop :=
  ∀ (fam : FamCode) (a : Addr) (v : Byte) (s : State), s.Ready → famOf s.cfg = .unsupported →
    exec (.wrFatal5 a v) s = .next { s with stop := .fatal, dout := none, romPort := none } ∧
    exec (.wrFatal67 fam a v) s = .next { s with stop := .fatal, dout := none, romPort := none } ∧
    fatalOut { s with stop := .fatal, dout := none, romPort := none } = true ∧
    decode (txn28 5 1 a v) = .wrFatal5 a v ∧
    (fam = 6 ∨ fam = 7 → decode (txn28 fam 1 a v) = .wrFatal67 fam a v)

/-- The only stops, who raises them, and what they record; the two numeric codes and the `FAULT` output. -/
def Obligations.OnlyTwoStopsArise : Prop :=
  ∀ (i : Instr) (s t : State), exec i s = .next t →
    t.stop = .running ∨
    (t.stop = .fatal ∧ instrIsWrite i = true ∧ famOf s.cfg = .unsupported ∧ stopCode t.stop = some 1) ∨
    (∃ b : Nat, t.stop = .faulted (.romBankOutOfRange b (instrAddr i)) ∧ instrIsWrite i = false ∧
      s.cfg.romBankCount ≤ b ∧ stopCode t.stop = some 2 ∧
      faultOut t = some (.romBankOutOfRange b (instrAddr i)) ∧ fatalOut t = false)

/-- Every stop is precise: the transaction that stops changes no register, bank index or RTC entry and answers no
byte. -/
def Obligations.StopsArePrecise : Prop :=
  ∀ (i : Instr) (s t : State), exec i s = .next t → t.stop ≠ .running →
    s.SameRegisters t ∧ t.cfg = s.cfg ∧ t.dout = none ∧ t.draws = s.draws

/-! ## Frames and whole-machine rules -/

/-- The frame of every form: it changes only the registers it stores to; the RTC file, the configuration, the
bytes of the ROM image, the queue and the clock input are otherwise as they were. -/
def Obligations.FrameOfEveryForm : Prop :=
  ∀ (i : Instr) (s t : State), exec i s = .next t →
    (∀ r : RegName, r ∉ storesTo i → t.reg.get r = s.reg.get r) ∧
    ((∀ a v, i ≠ .mbc3Latch a v) → t.rtc = s.rtc) ∧
    s.SameRom t ∧ t.cfg = s.cfg ∧ t.bus = s.bus ∧ t.clk = s.clk

/-- The recompute table: a form that recomputes an index leaves it equal to the compute function of the registers
after the write; any other form leaves the index as it was. -/
def Obligations.BankIndicesFollowTheRecomputeTable : Prop :=
  ∀ (i : Instr) (s t : State), exec i s = .next t →
    (recomputesRom i = true → computeRomBank t.cfg t.reg = some t.currentRomBank) ∧
    (recomputesRom i = false → t.currentRomBank = s.currentRomBank) ∧
    (recomputesRam s.reg i = true → t.currentRamBank = computeRamBank t.cfg t.reg) ∧
    (recomputesRam s.reg i = false → t.currentRamBank = s.currentRamBank)

/-- The registers a family's rules write, by name. -/
def Obligations.FamiliesWriteOnlyTheirRegisters : Prop :=
  ∀ (s t : State) (r : RegName), step s = .next t → t.reg.get r ≠ s.reg.get r →
    (famOf s.cfg, r) ∈
      ([(.mbc1, .ramEnable), (.mbc1, .romBankNumber), (.mbc1, .ramBankNumber), (.mbc1, .bankingMode),
        (.mbc2, .ramEnable), (.mbc2, .romBankNumber),
        (.mbc3, .ramEnable), (.mbc3, .romBankNumber), (.mbc3, .ramBankNumber), (.mbc3, .rtcRegisterNumber),
        (.mbc3, .rtcSelectionMode), (.mbc3, .latchTrigger),
        (.mbc5, .ramEnable), (.mbc5, .romBankNumber), (.mbc5, .highRomBankBit), (.mbc5, .ramBankNumber)]
        : List (Fam × RegName))

/-- No step changes the configuration, so none changes a byte of the ROM image. -/
def Obligations.StepsNeverChangeTheRom : Prop :=
  ∀ s t : State, step s = .next t → t.cfg = s.cfg ∧ s.SameRom t

/-- Every write is idempotent, the latch included, whatever clock sample the second write brings; and every read
that drew no free value is. -/
def Obligations.TransactionsAreIdempotent : Prop :=
  ∀ (i : Instr) (s t : State), exec i s = .next t → t.stop = .running →
    (instrIsWrite i = true →
      ∀ c : ClockSample, exec i { t with clk := c } = .next { t with clk := c }) ∧
    (instrIsWrite i = false → t.draws = s.draws → exec i t = .next t)

/-- A bank switch is seen by the very next read: any write that recomputes `currentRomBank`, of any family and value,
then a read of the switchable window.  `b` is the bank the registers give after the write; the middle clauses say
which number that is, form by form.  The read answers its byte, or stops where the image lacks that bank. -/
def Obligations.NextReadSeesTheBankSwitch : Prop :=
  ∀ (s : State) (a0 a1 : Addr) (v : Byte) (c : ClockSample) (rest : List BusTxn) (i : Instr), s.Ready →
    s.bus = .write a0 v c :: .read a1 :: rest →
    decode (txn28 s.cfg.famCode 1 a0 v) = i → recomputesRom i = true →
    0x4000 ≤ a1.toNat → a1.toNat ≤ 0x7FFF →
    ∃ (t1 : State) (b : Nat), step s = .next t1 ∧ computeRomBank s.cfg t1.reg = some b ∧
      (i = .mbc1Romb a0 v →
        b = if v.toNat % 32 = 0 then s.reg.ramBankNumber.toNat * 32 + 1
            else (s.reg.ramBankNumber.toNat <<< 5) ||| v.toNat % 32) ∧
      (i = .mbc1Ramb a0 v →
        b = if s.reg.romBankNumber = 0 then v.toNat % 4 * 32 + 1
            else ((v.toNat % 4) <<< 5) ||| s.reg.romBankNumber.toNat) ∧
      (i = .mbc2Romb a0 v → b = v.toNat % 16) ∧
      (i = .mbc3Romb a0 v → b = v.toNat % 32) ∧
      (i = .mbc5RombLo a0 v → s.cfg.mbc5RomFormula = .corrected →
        b = (s.reg.highRomBankBit.toNat <<< 8) ||| v.toNat) ∧
      (i = .mbc5RombHi a0 v → s.cfg.mbc5RomFormula = .corrected →
        b = v.toNat % 2 * 256 + s.reg.romBankNumber.toNat) ∧
      (∀ f : Vector Nat 256, s.cfg.mbc5RomFormula = .literal → s.cfg.mbc5LiteralFn = some f →
        (i = .mbc5RombLo a0 v → b = f[v.toNat]'(v.isLt)) ∧
        (i = .mbc5RombHi a0 v → b = f[s.reg.romBankNumber.toNat]'(s.reg.romBankNumber.isLt))) ∧
      (b < s.cfg.romBankCount → ∃ t : State, core.run 2 s = .next t ∧
        t.dout = some (romByte s.cfg b (BitVec.ofNat 14 (a1.toNat - 0x4000)))) ∧
      (s.cfg.romBankCount ≤ b → ∃ t : State, core.run 2 s = .next t ∧
        t.dout = none ∧ t.stop = .faulted (.romBankOutOfRange b a1))

/-- The RAM enable test after a RAM enable write, and the effects of the pseudo-transactions RAMON and RAMOFF,
under each of the four families; LATCH is one sample under MBC3. -/
def Obligations.RamEnableGateAndPseudoTransactions : Prop :=
  ∀ (s : State) (c c' : ClockSample), s.Ready →
    (famOf s.cfg = .mbc1 ∨ famOf s.cfg = .mbc2 ∨ famOf s.cfg = .mbc3 ∨ famOf s.cfg = .mbc5 →
      (∀ v : Byte, s.bus = [.write 0x0000 v c] → ∃ t, step s = .next t ∧
        (isRamEnabled t.reg = true ↔ v.toNat % 16 = 0x0A)) ∧
      (s.bus = pseudoRamon c → ∃ t, core.run 1 s = .next t ∧ t.reg.ramEnable = 0x0A) ∧
      (s.bus = pseudoRamoff c → ∃ t, core.run 1 s = .next t ∧ t.reg.ramEnable = 0)) ∧
    (famOf s.cfg = .mbc3 → s.bus = pseudoLatch c c' →
      ∃ t, core.run 2 s = .next t ∧ t.rtc = rtcOfSample c')
end

