-- ==== Sys2Proof/Laws/Decode.lean ====
section
/-! SUPPORT. The fields of a transaction word, and what each slice of an address says as a number. -/

namespace Sys2Proof

/-- The word as a number: `FAM<<25 | W<<24 | A<<8 | V` (30_encoding.md R90). -/
theorem toNat_txn28 (f : FamCode) (w : BitVec 1) (a : Addr) (v : Byte) :
    (txn28 f w a v).toNat = ((f.toNat * 2 + w.toNat) * 2 ^ 16 + a.toNat) * 2 ^ 8 + v.toNat := by
  unfold txn28
  simp only [BitVec.toNat_append]
  rw [← Nat.shiftLeft_add_eq_or_of_lt v.isLt, ← Nat.shiftLeft_add_eq_or_of_lt a.isLt,
    ← Nat.shiftLeft_add_eq_or_of_lt w.isLt]
  simp only [Nat.shiftLeft_eq]

theorem toNat_famField (t : Txn28) : (famField t).toNat = t.toNat / 2 ^ 25 % 8 := by
  simp [famField, BitVec.extractLsb'_toNat, Nat.shiftRight_eq_div_pow]

theorem toNat_dirField (t : Txn28) : (dirField t).toNat = t.toNat / 2 ^ 24 % 2 := by
  simp [dirField, BitVec.extractLsb'_toNat, Nat.shiftRight_eq_div_pow]

theorem toNat_addrField (t : Txn28) : (addrField t).toNat = t.toNat / 2 ^ 8 % 2 ^ 16 := by
  simp [addrField, BitVec.extractLsb'_toNat, Nat.shiftRight_eq_div_pow]

theorem toNat_valueField (t : Txn28) : (valueField t).toNat = t.toNat % 2 ^ 8 := by
  simp [valueField, BitVec.extractLsb'_toNat]

@[simp] theorem famField_txn28 (f : FamCode) (w : BitVec 1) (a : Addr) (v : Byte) :
    famField (txn28 f w a v) = f := by
  apply BitVec.eq_of_toNat_eq
  rw [toNat_famField, toNat_txn28]
  have := f.isLt; have := w.isLt; have := a.isLt; have := v.isLt
  omega

@[simp] theorem dirField_txn28 (f : FamCode) (w : BitVec 1) (a : Addr) (v : Byte) :
    dirField (txn28 f w a v) = w := by
  apply BitVec.eq_of_toNat_eq
  rw [toNat_dirField, toNat_txn28]
  have := w.isLt; have := a.isLt; have := v.isLt
  omega

@[simp] theorem addrField_txn28 (f : FamCode) (w : BitVec 1) (a : Addr) (v : Byte) :
    addrField (txn28 f w a v) = a := by
  apply BitVec.eq_of_toNat_eq
  rw [toNat_addrField, toNat_txn28]
  have := a.isLt; have := v.isLt
  omega

@[simp] theorem valueField_txn28 (f : FamCode) (w : BitVec 1) (a : Addr) (v : Byte) :
    valueField (txn28 f w a v) = v := by
  apply BitVec.eq_of_toNat_eq
  rw [toNat_valueField, toNat_txn28]
  have := v.isLt
  omega

/-- A word is its four fields. -/
theorem txn28_fields (t : Txn28) : txn28 (famField t) (dirField t) (addrField t) (valueField t) = t := by
  apply BitVec.eq_of_toNat_eq
  rw [toNat_txn28, toNat_famField, toNat_dirField, toNat_addrField, toNat_valueField]
  have := t.isLt
  omega

/-- A read word decodes by its family field and address; `V` is not used (30_encoding.md R94). -/
theorem decode_read (f : FamCode) (a : Addr) (v : Byte) : decode (txn28 f 0 a v) = decodeRead f a := by
  simp [decode]

theorem decode_write (f : FamCode) (a : Addr) (v : Byte) : decode (txn28 f 1 a v) = decodeWrite f a v := by
  simp [decode]

/-! ## Slices of the address -/

theorem slice13 (a : Addr) : (a.extractLsb' 13 3).toNat = a.toNat / 0x2000 := by
  have := a.isLt
  simp [BitVec.extractLsb'_toNat, Nat.shiftRight_eq_div_pow]
  omega

theorem slice14 (a : Addr) : (a.extractLsb' 14 2).toNat = a.toNat / 0x4000 := by
  have := a.isLt
  simp [BitVec.extractLsb'_toNat, Nat.shiftRight_eq_div_pow]
  omega

theorem slice12 (a : Addr) : (a.extractLsb' 12 4).toNat = a.toNat / 0x1000 := by
  have := a.isLt
  simp [BitVec.extractLsb'_toNat, Nat.shiftRight_eq_div_pow]
  omega

theorem bit8 (a : Addr) : a.getLsbD 8 = decide (a.toNat / 0x100 % 2 = 1) := by
  simp only [BitVec.getLsbD, Nat.testBit, Nat.shiftRight_eq_div_pow, Nat.one_and_eq_mod_two]
  by_cases h : a.toNat / 0x100 % 2 = 1
  · simp [h]
  · simp [h]

/-- The offset of a ROM read as a number (20_memory.md R69). -/
theorem toNat_offset (a : Addr) : (a.extractLsb' 0 14).toNat = a.toNat % 0x4000 := by
  simp [BitVec.extractLsb'_toNat]

/-! ## The decode map by address ranges (30_encoding.md R96; 20_memory.md R62, R63) -/

theorem decodeRead_ranges (f : FamCode) (a : Addr) : decodeRead f a =
    (if a.toNat < 0x4000 then .rdRom0 f a
     else if a.toNat < 0x8000 then .rdRomx f a
     else if a.toNat < 0xA000 then .rdOpenLow f a
     else if a.toNat < 0xC000 then .rdXram f a
     else .rdOpenHigh f a) := by
  have := a.isLt
  unfold decodeRead
  rw [slice13]
  generalize hq : a.toNat / 0x2000 = q
  have hlt : q < 8 := by omega
  interval_cases q <;> split_ifs <;> first | rfl | omega

theorem decodeMbc1_ranges (a : Addr) (v : Byte) : decodeMbc1 a v =
    (if a.toNat < 0x2000 then .mbc1Ramen a v
     else if a.toNat < 0x4000 then .mbc1Romb a v
     else if a.toNat < 0x6000 then .mbc1Ramb a v
     else if a.toNat < 0x8000 then .mbc1Mode a v
     else .wrIgnoreMbc1 a v) := by
  have := a.isLt
  unfold decodeMbc1
  rw [slice13]
  generalize hq : a.toNat / 0x2000 = q
  have hlt : q < 8 := by omega
  interval_cases q <;> split_ifs <;> first | rfl | omega

theorem decodeMbc2_ranges (a : Addr) (v : Byte) : decodeMbc2 a v =
    (if a.toNat < 0x4000 then (if a.toNat / 0x100 % 2 = 1 then .mbc2Romb a v else .mbc2Ramen a v)
     else if a.toNat < 0x8000 then .wrIgnoreMbc2Low a v
     else .wrIgnoreMbc2High a v) := by
  have := a.isLt
  unfold decodeMbc2
  rw [slice14, bit8]
  generalize hq : a.toNat / 0x4000 = q
  have hlt : q < 4 := by omega
  interval_cases q <;> simp only [decide_eq_true_eq] <;> split_ifs <;> first | rfl | omega

theorem decodeMbc3_ranges (a : Addr) (v : Byte) : decodeMbc3 a v =
    (if a.toNat < 0x2000 then .mbc3Ramen a v
     else if a.toNat < 0x4000 then .mbc3Romb a v
     else if a.toNat < 0x6000 then .mbc3Sel a v
     else if a.toNat < 0x8000 then .mbc3Latch a v
     else .wrIgnoreMbc3 a v) := by
  have := a.isLt
  unfold decodeMbc3
  rw [slice13]
  generalize hq : a.toNat / 0x2000 = q
  have hlt : q < 8 := by omega
  interval_cases q <;> split_ifs <;> first | rfl | omega

theorem decodeMbc5_ranges (a : Addr) (v : Byte) : decodeMbc5 a v =
    (if a.toNat < 0x2000 then .mbc5Ramen a v
     else if a.toNat < 0x3000 then .mbc5RombLo a v
     else if a.toNat < 0x4000 then .mbc5RombHi a v
     else if a.toNat < 0x6000 then .mbc5Ramb a v
     else if a.toNat < 0x8000 then .wrIgnoreMbc5Low a v
     else .wrIgnoreMbc5High a v) := by
  have := a.isLt
  unfold decodeMbc5
  rw [slice12]
  generalize hq : a.toNat / 0x1000 = q
  have hlt : q < 16 := by omega
  interval_cases q <;> split_ifs <;> first | rfl | omega

end Sys2Proof
end

