-- ==== Sys2Proof/Laws/Memory.lean ====
section
/-! SUPPORT. The ROM image: every operation keeps the canonical form, a read after a write, and that canonical
images which read alike are equal. -/

namespace Sys2Proof.Machine

theorem Memory.risesFrom_mono {lo lo' : Nat} {m : Memory} (h : lo' ≤ lo)
    (hm : Memory.risesFrom lo m = true) : Memory.risesFrom lo' m = true := by
  cases m with
  | nil => rfl
  | cons c rest =>
    obtain ⟨k, b⟩ := c
    simp only [Memory.risesFrom, Bool.and_eq_true, decide_eq_true_eq] at hm ⊢
    exact ⟨⟨by omega, hm.1.2⟩, hm.2⟩

/-- Below where the cells start, a byte is unlisted. -/
theorem Memory.read_below {lo n : Nat} {m : Memory} (hm : Memory.risesFrom lo m = true) (hn : n < lo) :
    Memory.read m n = romUnlisted := by
  induction m generalizing lo with
  | nil => rfl
  | cons c rest ih =>
    obtain ⟨k, b⟩ := c
    simp only [Memory.risesFrom, Bool.and_eq_true, decide_eq_true_eq] at hm
    rw [Memory.read, if_neg (by omega)]
    exact ih hm.2 (by omega)

theorem Memory.write_risesFrom {lo n : Nat} (m : Memory) (v : Byte) (hn : lo ≤ n)
    (hm : Memory.risesFrom lo m = true) : Memory.risesFrom lo (Memory.write m n v) = true := by
  induction m generalizing lo with
  | nil =>
    unfold Memory.write
    split
    · rfl
    · rename_i hv; simp [Memory.risesFrom, hn, hv]
  | cons c rest ih =>
    obtain ⟨k, b⟩ := c
    simp only [Memory.risesFrom, Bool.and_eq_true, decide_eq_true_eq, bne_iff_ne, ne_eq] at hm
    unfold Memory.write
    split
    · rename_i hlt
      split
      · simp [Memory.risesFrom, hm]
      · rename_i hv
        simp only [Memory.risesFrom, Bool.and_eq_true, decide_eq_true_eq, bne_iff_ne, ne_eq]
        exact ⟨⟨hn, hv⟩, ⟨by omega, hm.1.2⟩, hm.2⟩
    · split
      · rename_i heq
        subst heq
        split
        · exact Memory.risesFrom_mono (by omega) hm.2
        · rename_i hv; simp [Memory.risesFrom, hn, hv, hm.2]
      · simp only [Memory.risesFrom, Bool.and_eq_true, decide_eq_true_eq, bne_iff_ne, ne_eq]
        exact ⟨hm.1, ih (by omega) hm.2⟩

/-- A write keeps the canonical form. -/
theorem Memory.write_wf (m : Memory) (n : Nat) (v : Byte) (h : Memory.wf m = true) :
    Memory.wf (Memory.write m n v) = true :=
  Memory.write_risesFrom m v (Nat.zero_le n) h

theorem Memory.write_below (m : Memory) (n k : Nat) (v : Byte) (hk : k < n) (h : Memory.below n m = true) :
    Memory.below n (Memory.write m k v) = true := by
  induction m with
  | nil =>
    unfold Memory.write
    split <;> simp [Memory.below, hk]
  | cons c rest ih =>
    obtain ⟨j, b⟩ := c
    simp only [Memory.below, List.all_cons, Bool.and_eq_true, decide_eq_true_eq] at h ih
    unfold Memory.write
    repeat' split
    all_goals simp only [Memory.below, List.all_cons, Bool.and_eq_true, decide_eq_true_eq]
    all_goals first
      | exact h
      | exact ⟨hk, h⟩
      | exact h.2
      | exact ⟨hk, h.2⟩
      | exact ⟨h.1, ih h.2⟩

/-- A byte read after a write: the value written at its address, every other byte as before. -/
theorem Memory.read_write {lo : Nat} (m : Memory) (n k : Nat) (v : Byte)
    (h : Memory.risesFrom lo m = true) :
    Memory.read (Memory.write m n v) k = if k = n then v else Memory.read m k := by
  induction m generalizing lo with
  | nil =>
    unfold Memory.write
    by_cases hv : v = romUnlisted <;> by_cases hk : k = n <;>
      (simp [hv, hk, Memory.read, eq_comm]; try omega)
  | cons c rest ih =>
    obtain ⟨j, b⟩ := c
    simp only [Memory.risesFrom, Bool.and_eq_true, decide_eq_true_eq, bne_iff_ne, ne_eq] at h
    have hlow : ∀ x, x ≤ j → Memory.read rest x = romUnlisted := fun x hx =>
      Memory.read_below h.2 (by omega)
    have ih' := ih h.2
    unfold Memory.write
    by_cases hnj : n < j
    · by_cases hv : v = romUnlisted <;> by_cases hk : k = n
      · subst hk; simp [hnj, hv, Memory.read, hlow k (by omega), Nat.ne_of_gt hnj]
      · simp [hnj, hv, hk]
      · simp [hnj, hv, hk, Memory.read]
      · have : n ≠ k := fun e => hk e.symm
        simp [hnj, hv, hk, Memory.read, this]
    · by_cases hnj' : n = j
      · subst hnj'
        by_cases hv : v = romUnlisted <;> by_cases hk : k = n
        · subst hk; simp [hv, hlow k (Nat.le_refl k)]
        · have : n ≠ k := fun e => hk e.symm
          simp [hv, hk, Memory.read, this]
        · simp [hv, hk, Memory.read]
        · have : n ≠ k := fun e => hk e.symm
          simp [hv, hk, Memory.read, this]
      · simp only [hnj, hnj', if_false, Memory.read, ih']
        by_cases hk : k = n
        · have : j ≠ k := by omega
          simp [hk]; omega
        · simp [hk]

/-- The canonical form: images that read alike are the same list. -/
theorem Memory.eq_of_reads {lo : Nat} {m m' : Memory} (h : Memory.risesFrom lo m = true)
    (h' : Memory.risesFrom lo m' = true) (H : ∀ n, Memory.read m n = Memory.read m' n) : m = m' := by
  induction m generalizing lo m' with
  | nil =>
    cases m' with
    | nil => rfl
    | cons c rest =>
      obtain ⟨k, b⟩ := c
      simp only [Memory.risesFrom, Bool.and_eq_true, bne_iff_ne, ne_eq] at h'
      have := H k
      simp only [Memory.read, if_true] at this
      exact absurd this.symm h'.1.2
  | cons c rest ih =>
    obtain ⟨k, b⟩ := c
    cases m' with
    | nil =>
      simp only [Memory.risesFrom, Bool.and_eq_true, bne_iff_ne, ne_eq] at h
      have := H k
      simp only [Memory.read, if_true] at this
      exact absurd this h.1.2
    | cons c' rest' =>
      obtain ⟨k', b'⟩ := c'
      simp only [Memory.risesFrom, Bool.and_eq_true, decide_eq_true_eq, bne_iff_ne, ne_eq] at h h'
      have hk : k = k' := by
        rcases Nat.lt_trichotomy k k' with hlt | heq | hgt
        · have := H k
          rw [Memory.read, if_pos rfl, Memory.read, if_neg (by omega),
            Memory.read_below h'.2 (by omega)] at this
          exact absurd this h.1.2
        · exact heq
        · have := H k'
          rw [Memory.read, if_neg (by omega), Memory.read_below h.2 (by omega),
            Memory.read, if_pos rfl] at this
          exact absurd this.symm h'.1.2
      subst hk
      have hb : b = b' := by simpa [Memory.read] using H k
      subst hb
      congr 1
      refine ih h.2 h'.2 fun n => ?_
      by_cases hn : n < k + 1
      · rw [Memory.read_below h.2 hn, Memory.read_below h'.2 hn]
      · have := H n
        rwa [Memory.read, if_neg (by omega), Memory.read, if_neg (by omega)] at this

end Sys2Proof.Machine
end

