-- ==== Sys2Proof/Laws/State.lean ====
section
/-! SUPPORT. What each update of the state does to each field: one lemma per field per update. -/

namespace Sys2Proof.Machine

section SetReg
@[simp] theorem setReg_reg (r : RegName) (v : Byte) (s : State) : (setReg r v s).reg = s.reg.set r v := rfl
@[simp] theorem setReg_currentRomBank (r : RegName) (v : Byte) (s : State) : (setReg r v s).currentRomBank = s.currentRomBank := rfl
@[simp] theorem setReg_currentRamBank (r : RegName) (v : Byte) (s : State) : (setReg r v s).currentRamBank = s.currentRamBank := rfl
@[simp] theorem setReg_rtc (r : RegName) (v : Byte) (s : State) : (setReg r v s).rtc = s.rtc := rfl
@[simp] theorem setReg_stop (r : RegName) (v : Byte) (s : State) : (setReg r v s).stop = s.stop := rfl
@[simp] theorem setReg_cfg (r : RegName) (v : Byte) (s : State) : (setReg r v s).cfg = s.cfg := rfl
@[simp] theorem setReg_bus (r : RegName) (v : Byte) (s : State) : (setReg r v s).bus = s.bus := rfl
@[simp] theorem setReg_clk (r : RegName) (v : Byte) (s : State) : (setReg r v s).clk = s.clk := rfl
@[simp] theorem setReg_dout (r : RegName) (v : Byte) (s : State) : (setReg r v s).dout = s.dout := rfl
@[simp] theorem setReg_romPort (r : RegName) (v : Byte) (s : State) : (setReg r v s).romPort = s.romPort := rfl
@[simp] theorem setReg_draws (r : RegName) (v : Byte) (s : State) : (setReg r v s).draws = s.draws := rfl
end SetReg

section RecomputeRam
@[simp] theorem recomputeRam_reg (s : State) : (recomputeRam s).reg = s.reg := rfl
@[simp] theorem recomputeRam_currentRomBank (s : State) : (recomputeRam s).currentRomBank = s.currentRomBank := rfl
@[simp] theorem recomputeRam_currentRamBank (s : State) : (recomputeRam s).currentRamBank = computeRamBank s.cfg s.reg := rfl
@[simp] theorem recomputeRam_rtc (s : State) : (recomputeRam s).rtc = s.rtc := rfl
@[simp] theorem recomputeRam_stop (s : State) : (recomputeRam s).stop = s.stop := rfl
@[simp] theorem recomputeRam_cfg (s : State) : (recomputeRam s).cfg = s.cfg := rfl
@[simp] theorem recomputeRam_bus (s : State) : (recomputeRam s).bus = s.bus := rfl
@[simp] theorem recomputeRam_clk (s : State) : (recomputeRam s).clk = s.clk := rfl
@[simp] theorem recomputeRam_dout (s : State) : (recomputeRam s).dout = s.dout := rfl
@[simp] theorem recomputeRam_romPort (s : State) : (recomputeRam s).romPort = s.romPort := rfl
@[simp] theorem recomputeRam_draws (s : State) : (recomputeRam s).draws = s.draws := rfl
end RecomputeRam

section ClearOutputs
@[simp] theorem clearOutputs_reg (s : State) : (clearOutputs s).reg = s.reg := rfl
@[simp] theorem clearOutputs_currentRomBank (s : State) : (clearOutputs s).currentRomBank = s.currentRomBank := rfl
@[simp] theorem clearOutputs_currentRamBank (s : State) : (clearOutputs s).currentRamBank = s.currentRamBank := rfl
@[simp] theorem clearOutputs_rtc (s : State) : (clearOutputs s).rtc = s.rtc := rfl
@[simp] theorem clearOutputs_stop (s : State) : (clearOutputs s).stop = s.stop := rfl
@[simp] theorem clearOutputs_cfg (s : State) : (clearOutputs s).cfg = s.cfg := rfl
@[simp] theorem clearOutputs_bus (s : State) : (clearOutputs s).bus = s.bus := rfl
@[simp] theorem clearOutputs_clk (s : State) : (clearOutputs s).clk = s.clk := rfl
@[simp] theorem clearOutputs_dout (s : State) : (clearOutputs s).dout = none := rfl
@[simp] theorem clearOutputs_romPort (s : State) : (clearOutputs s).romPort = none := rfl
@[simp] theorem clearOutputs_draws (s : State) : (clearOutputs s).draws = s.draws := rfl
end ClearOutputs

section Answer
@[simp] theorem answer_reg (v : Byte) (s : State) : (answer v s).reg = s.reg := rfl
@[simp] theorem answer_currentRomBank (v : Byte) (s : State) : (answer v s).currentRomBank = s.currentRomBank := rfl
@[simp] theorem answer_currentRamBank (v : Byte) (s : State) : (answer v s).currentRamBank = s.currentRamBank := rfl
@[simp] theorem answer_rtc (v : Byte) (s : State) : (answer v s).rtc = s.rtc := rfl
@[simp] theorem answer_stop (v : Byte) (s : State) : (answer v s).stop = s.stop := rfl
@[simp] theorem answer_cfg (v : Byte) (s : State) : (answer v s).cfg = s.cfg := rfl
@[simp] theorem answer_bus (v : Byte) (s : State) : (answer v s).bus = s.bus := rfl
@[simp] theorem answer_clk (v : Byte) (s : State) : (answer v s).clk = s.clk := rfl
@[simp] theorem answer_dout (v : Byte) (s : State) : (answer v s).dout = some v := rfl
@[simp] theorem answer_romPort (v : Byte) (s : State) : (answer v s).romPort = s.romPort := rfl
@[simp] theorem answer_draws (v : Byte) (s : State) : (answer v s).draws = s.draws := rfl
end Answer

section AnswerDraw
@[simp] theorem answerDraw_reg (s : State) : (answerDraw s).reg = s.reg := rfl
@[simp] theorem answerDraw_currentRomBank (s : State) : (answerDraw s).currentRomBank = s.currentRomBank := rfl
@[simp] theorem answerDraw_currentRamBank (s : State) : (answerDraw s).currentRamBank = s.currentRamBank := rfl
@[simp] theorem answerDraw_rtc (s : State) : (answerDraw s).rtc = s.rtc := rfl
@[simp] theorem answerDraw_stop (s : State) : (answerDraw s).stop = s.stop := rfl
@[simp] theorem answerDraw_cfg (s : State) : (answerDraw s).cfg = s.cfg := rfl
@[simp] theorem answerDraw_bus (s : State) : (answerDraw s).bus = s.bus := rfl
@[simp] theorem answerDraw_clk (s : State) : (answerDraw s).clk = s.clk := rfl
@[simp] theorem answerDraw_dout (s : State) : (answerDraw s).dout = some (Config.draw8 s.draws) := rfl
@[simp] theorem answerDraw_romPort (s : State) : (answerDraw s).romPort = s.romPort := rfl
@[simp] theorem answerDraw_draws (s : State) : (answerDraw s).draws = s.draws + 1 := rfl
end AnswerDraw

section Present
@[simp] theorem present_reg (b : Nat) (o : RomOff) (s : State) : (present b o s).reg = s.reg := rfl
@[simp] theorem present_currentRomBank (b : Nat) (o : RomOff) (s : State) : (present b o s).currentRomBank = s.currentRomBank := rfl
@[simp] theorem present_currentRamBank (b : Nat) (o : RomOff) (s : State) : (present b o s).currentRamBank = s.currentRamBank := rfl
@[simp] theorem present_rtc (b : Nat) (o : RomOff) (s : State) : (present b o s).rtc = s.rtc := rfl
@[simp] theorem present_stop (b : Nat) (o : RomOff) (s : State) : (present b o s).stop = s.stop := rfl
@[simp] theorem present_cfg (b : Nat) (o : RomOff) (s : State) : (present b o s).cfg = s.cfg := rfl
@[simp] theorem present_bus (b : Nat) (o : RomOff) (s : State) : (present b o s).bus = s.bus := rfl
@[simp] theorem present_clk (b : Nat) (o : RomOff) (s : State) : (present b o s).clk = s.clk := rfl
@[simp] theorem present_dout (b : Nat) (o : RomOff) (s : State) : (present b o s).dout = s.dout := rfl
@[simp] theorem present_romPort (b : Nat) (o : RomOff) (s : State) : (present b o s).romPort = some ⟨b, o⟩ := rfl
@[simp] theorem present_draws (b : Nat) (o : RomOff) (s : State) : (present b o s).draws = s.draws := rfl
end Present

section RaiseRomFault
@[simp] theorem raiseRomFault_reg (b : Nat) (a : Addr) (s : State) : (raiseRomFault b a s).reg = s.reg := rfl
@[simp] theorem raiseRomFault_currentRomBank (b : Nat) (a : Addr) (s : State) : (raiseRomFault b a s).currentRomBank = s.currentRomBank := rfl
@[simp] theorem raiseRomFault_currentRamBank (b : Nat) (a : Addr) (s : State) : (raiseRomFault b a s).currentRamBank = s.currentRamBank := rfl
@[simp] theorem raiseRomFault_rtc (b : Nat) (a : Addr) (s : State) : (raiseRomFault b a s).rtc = s.rtc := rfl
@[simp] theorem raiseRomFault_stop (b : Nat) (a : Addr) (s : State) : (raiseRomFault b a s).stop = .faulted (.romBankOutOfRange b a) := rfl
@[simp] theorem raiseRomFault_cfg (b : Nat) (a : Addr) (s : State) : (raiseRomFault b a s).cfg = s.cfg := rfl
@[simp] theorem raiseRomFault_bus (b : Nat) (a : Addr) (s : State) : (raiseRomFault b a s).bus = s.bus := rfl
@[simp] theorem raiseRomFault_clk (b : Nat) (a : Addr) (s : State) : (raiseRomFault b a s).clk = s.clk := rfl
@[simp] theorem raiseRomFault_dout (b : Nat) (a : Addr) (s : State) : (raiseRomFault b a s).dout = s.dout := rfl
@[simp] theorem raiseRomFault_romPort (b : Nat) (a : Addr) (s : State) : (raiseRomFault b a s).romPort = s.romPort := rfl
@[simp] theorem raiseRomFault_draws (b : Nat) (a : Addr) (s : State) : (raiseRomFault b a s).draws = s.draws := rfl
end RaiseRomFault

section RaiseFatal
@[simp] theorem raiseFatal_reg (s : State) : (raiseFatal s).reg = s.reg := rfl
@[simp] theorem raiseFatal_currentRomBank (s : State) : (raiseFatal s).currentRomBank = s.currentRomBank := rfl
@[simp] theorem raiseFatal_currentRamBank (s : State) : (raiseFatal s).currentRamBank = s.currentRamBank := rfl
@[simp] theorem raiseFatal_rtc (s : State) : (raiseFatal s).rtc = s.rtc := rfl
@[simp] theorem raiseFatal_stop (s : State) : (raiseFatal s).stop = .fatal := rfl
@[simp] theorem raiseFatal_cfg (s : State) : (raiseFatal s).cfg = s.cfg := rfl
@[simp] theorem raiseFatal_bus (s : State) : (raiseFatal s).bus = s.bus := rfl
@[simp] theorem raiseFatal_clk (s : State) : (raiseFatal s).clk = s.clk := rfl
@[simp] theorem raiseFatal_dout (s : State) : (raiseFatal s).dout = s.dout := rfl
@[simp] theorem raiseFatal_romPort (s : State) : (raiseFatal s).romPort = s.romPort := rfl
@[simp] theorem raiseFatal_draws (s : State) : (raiseFatal s).draws = s.draws := rfl
end RaiseFatal

section LatchSample
@[simp] theorem latchSample_reg (s : State) : (latchSample s).reg = s.reg := rfl
@[simp] theorem latchSample_currentRomBank (s : State) : (latchSample s).currentRomBank = s.currentRomBank := rfl
@[simp] theorem latchSample_currentRamBank (s : State) : (latchSample s).currentRamBank = s.currentRamBank := rfl
@[simp] theorem latchSample_rtc (s : State) : (latchSample s).rtc = rtcOfSample s.clk := rfl
@[simp] theorem latchSample_stop (s : State) : (latchSample s).stop = s.stop := rfl
@[simp] theorem latchSample_cfg (s : State) : (latchSample s).cfg = s.cfg := rfl
@[simp] theorem latchSample_bus (s : State) : (latchSample s).bus = s.bus := rfl
@[simp] theorem latchSample_clk (s : State) : (latchSample s).clk = s.clk := rfl
@[simp] theorem latchSample_dout (s : State) : (latchSample s).dout = s.dout := rfl
@[simp] theorem latchSample_romPort (s : State) : (latchSample s).romPort = s.romPort := rfl
@[simp] theorem latchSample_draws (s : State) : (latchSample s).draws = s.draws := rfl
end LatchSample

/-- `recomputeRom` writes `currentRomBank` only. -/
theorem recomputeRom_eq (s : State) :
    recomputeRom s = { s with currentRomBank := (computeRomBank s.cfg s.reg).getD s.currentRomBank } := by
  unfold recomputeRom; cases computeRomBank s.cfg s.reg <;> rfl

@[simp] theorem recomputeRom_currentRomBank (s : State) :
    (recomputeRom s).currentRomBank = (computeRomBank s.cfg s.reg).getD s.currentRomBank := by
  rw [recomputeRom_eq]

@[simp] theorem recomputeRom_reg (s : State) : (recomputeRom s).reg = s.reg := by rw [recomputeRom_eq]
@[simp] theorem recomputeRom_currentRamBank (s : State) : (recomputeRom s).currentRamBank = s.currentRamBank := by rw [recomputeRom_eq]
@[simp] theorem recomputeRom_rtc (s : State) : (recomputeRom s).rtc = s.rtc := by rw [recomputeRom_eq]
@[simp] theorem recomputeRom_stop (s : State) : (recomputeRom s).stop = s.stop := by rw [recomputeRom_eq]
@[simp] theorem recomputeRom_cfg (s : State) : (recomputeRom s).cfg = s.cfg := by rw [recomputeRom_eq]
@[simp] theorem recomputeRom_bus (s : State) : (recomputeRom s).bus = s.bus := by rw [recomputeRom_eq]
@[simp] theorem recomputeRom_clk (s : State) : (recomputeRom s).clk = s.clk := by rw [recomputeRom_eq]
@[simp] theorem recomputeRom_dout (s : State) : (recomputeRom s).dout = s.dout := by rw [recomputeRom_eq]
@[simp] theorem recomputeRom_romPort (s : State) : (recomputeRom s).romPort = s.romPort := by rw [recomputeRom_eq]
@[simp] theorem recomputeRom_draws (s : State) : (recomputeRom s).draws = s.draws := by rw [recomputeRom_eq]

/-- A register read after a register write. -/
@[simp] theorem RegBank.get_set (g : RegBank) (r q : RegName) (v : Byte) :
    (g.set r v).get q = if q = r then v else g.get q := by
  cases r <;> cases q <;> rfl

/-- Two Register Banks with the same eight registers are equal. -/
theorem RegBank.ext_get (g h : RegBank) (H : ∀ r : RegName, g.get r = h.get r) : g = h := by
  cases g; cases h
  have h1 := H .ramEnable; have h2 := H .romBankNumber; have h3 := H .highRomBankBit
  have h4 := H .ramBankNumber; have h5 := H .rtcRegisterNumber; have h6 := H .rtcSelectionMode
  have h7 := H .latchTrigger; have h8 := H .bankingMode
  simp only [RegBank.get] at h1 h2 h3 h4 h5 h6 h7 h8
  subst h1 h2 h3 h4 h5 h6 h7 h8; rfl

/-- Writing a register twice with one value is writing it once. -/
@[simp] theorem RegBank.set_set (g : RegBank) (r : RegName) (v : Byte) : (g.set r v).set r v = g.set r v := by
  cases r <;> rfl

@[simp] theorem clearOutputs_clearOutputs (s : State) : clearOutputs (clearOutputs s) = clearOutputs s := rfl

end Sys2Proof.Machine
end

