-- ==== Sys2Proof/Laws/Exec.lean ====
section
/-! SUPPORT. What a transaction can do, said once: the guards, and the effect of every form on the state. -/

namespace Sys2Proof.Machine

/-! ## The guards -/

theorem transact_ready {s : State} (h : s.Ready) (k : State → State) :
    transact s k = .next (k (clearOutputs s)) := by
  simp [transact, h.cfgOk, h.running]

theorem transact_next {s t : State} {k : State → State} :
    transact s k = .next t ↔ s.Ready ∧ t = k (clearOutputs s) := by
  constructor
  · intro h
    unfold transact at h
    split at h
    · rename_i hc
      split at h
      · rename_i hs
        exact ⟨⟨hc, hs⟩, by injection h with h; exact h.symm⟩
      · cases h
      · cases h
    · cases h
  · rintro ⟨h, rfl⟩
    exact transact_ready h k

theorem transactOn_ready {f : Fam} {s : State} (h : s.Ready) (hf : famOf s.cfg = f) (k : State → State) :
    transactOn f s k = .next (k (clearOutputs s)) := by
  rw [transactOn, if_pos hf, transact_ready h]

theorem transactOn_next {f : Fam} {s t : State} {k : State → State} :
    transactOn f s k = .next t ↔ s.Ready ∧ famOf s.cfg = f ∧ t = k (clearOutputs s) := by
  unfold transactOn
  split
  · rename_i hf
    rw [transact_next]; simp [hf]
  · rename_i hf
    simp [hf]

theorem transact_fatal {s : State} (hc : cfgOk s.cfg = true) (h : s.stop = .fatal) (k : State → State) :
    transact s k = .fault .stoppedFatal := by
  simp [transact, hc, h]

theorem transact_faulted {s : State} {r : StopReason} (hc : cfgOk s.cfg = true) (h : s.stop = .faulted r)
    (k : State → State) : transact s k = .fault (.stoppedFaulted r) := by
  simp [transact, hc, h]

/-! ## The effect of every form -/

/-- What a form does to the state once its guards hold. -/
def effect : Instr → State → State
  | .rdRom0 _ a => fun s =>
    if mbc1LargeRomQuirk s.cfg s.reg then romRead (s.reg.ramBankNumber.toNat <<< 5) (romOffset a) a s
    else romRead 0 (romOffset a) a s
  | .rdRomx _ a => fun s => romRead s.currentRomBank (romOffset a) a s
  | .rdOpenLow _ _ => answer openBus
  | .rdXram _ _ => fun s =>
    if readsRtc s.cfg s.reg then rtcRead s.reg.rtcRegisterNumber s else answer openBus s
  | .rdOpenHigh _ _ => answer openBus
  | .wrIgnoreNoMbc _ _ => id
  | .mbc1Ramen _ v => fun s => recomputeRam (setReg .ramEnable (low4 v) s)
  | .mbc1Romb _ v => fun s => recomputeRom (setReg .romBankNumber (low5 v) s)
  | .mbc1Ramb _ v => fun s => recomputeRam (recomputeRom (setReg .ramBankNumber (low2 v) s))
  | .mbc1Mode _ v => fun s =>
    if isRamEnabled s.reg then recomputeRam (setReg .bankingMode (low1 v) s)
    else setReg .bankingMode (low1 v) s
  | .wrIgnoreMbc1 _ _ => id
  | .mbc2Romb _ v => fun s => recomputeRom (setReg .romBankNumber (low4 v) s)
  | .mbc2Ramen _ v => fun s => recomputeRam (setReg .ramEnable (low4 v) s)
  | .wrIgnoreMbc2Low _ _ => id
  | .wrIgnoreMbc2High _ _ => id
  | .mbc3Ramen _ v => fun s => recomputeRam (setReg .ramEnable (low4 v) s)
  | .mbc3Romb _ v => fun s => recomputeRom (setReg .romBankNumber (low5 v) s)
  | .mbc3Sel _ v => fun s =>
    if selectsRam v then recomputeRam (setReg .ramBankNumber v (setReg .rtcSelectionMode selRam s))
    else if selectsRtc v then setReg .rtcRegisterNumber v (setReg .rtcSelectionMode selRtc s)
    else setReg .rtcSelectionMode selNone s
  | .mbc3Latch _ v => fun s =>
    setReg .latchTrigger v (if latchEdge s.reg v then latchSample s else s)
  | .wrIgnoreMbc3 _ _ => id
  | .mbc5Ramen _ v => fun s => recomputeRam (setReg .ramEnable (low4 v) s)
  | .mbc5RombLo _ v => fun s => recomputeRom (setReg .romBankNumber v s)
  | .mbc5RombHi _ v => fun s => recomputeRom (setReg .highRomBankBit (low1 v) s)
  | .mbc5Ramb _ v => fun s => recomputeRam (setReg .ramBankNumber v s)
  | .wrIgnoreMbc5Low _ _ => id
  | .wrIgnoreMbc5High _ _ => id
  | .wrFatal5 _ _ => raiseFatal
  | .wrFatal67 _ _ _ => raiseFatal

/-- Running a form is its effect behind its guards: the one place where the arms of `exec` are unfolded. -/
theorem exec_eq (i : Instr) (s : State) : exec i s =
    match formFamily i with
    | none => transact s (effect i)
    | some f => transactOn f s (effect i) := by
  cases i <;> rfl

/-- What a form can do: it gives a next state exactly when the block runs and the form is of its family, and the
next state is then the form's effect. -/
theorem exec_next {i : Instr} {s t : State} : exec i s = .next t ↔
    s.Ready ∧ (∀ f, formFamily i = some f → famOf s.cfg = f) ∧ t = effect i (clearOutputs s) := by
  rw [exec_eq]
  cases h : formFamily i with
  | none => simp [transact_next]
  | some f => simp [transactOn_next]

theorem exec_ready {i : Instr} {s : State} (h : s.Ready)
    (hf : ∀ f, formFamily i = some f → famOf s.cfg = f) : exec i s = .next (effect i (clearOutputs s)) :=
  exec_next.2 ⟨h, hf, rfl⟩

/-! ## What the shared reads do to each field -/

section RomRead
variable (b : Nat) (o : RomOff) (a : Addr) (s : State)

@[simp] theorem romRead_reg : (romRead b o a s).reg = s.reg := by unfold romRead; split <;> rfl
@[simp] theorem romRead_currentRomBank : (romRead b o a s).currentRomBank = s.currentRomBank := by
  unfold romRead; split <;> rfl
@[simp] theorem romRead_currentRamBank : (romRead b o a s).currentRamBank = s.currentRamBank := by
  unfold romRead; split <;> rfl
@[simp] theorem romRead_rtc : (romRead b o a s).rtc = s.rtc := by unfold romRead; split <;> rfl
@[simp] theorem romRead_cfg : (romRead b o a s).cfg = s.cfg := by unfold romRead; split <;> rfl
@[simp] theorem romRead_bus : (romRead b o a s).bus = s.bus := by unfold romRead; split <;> rfl
@[simp] theorem romRead_clk : (romRead b o a s).clk = s.clk := by unfold romRead; split <;> rfl
@[simp] theorem romRead_draws : (romRead b o a s).draws = s.draws := by unfold romRead; split <;> rfl
@[simp] theorem romRead_romPort : (romRead b o a s).romPort = some ⟨b, o⟩ := by unfold romRead; split <;> rfl

/-- A ROM read answers, or stops: the two cases with their condition. -/
theorem romRead_cases :
    (b < s.cfg.romBankCount ∧ (romRead b o a s).stop = s.stop ∧
      (romRead b o a s).dout = some (romByte s.cfg b o)) ∨
    (s.cfg.romBankCount ≤ b ∧ (romRead b o a s).stop = .faulted (.romBankOutOfRange b a) ∧
      (romRead b o a s).dout = s.dout) := by
  unfold romRead
  split
  · exact .inl ⟨‹_›, rfl, rfl⟩
  · exact .inr ⟨by omega, rfl, rfl⟩
end RomRead

section RtcRead
variable (i : Byte) (s : State)

@[simp] theorem rtcRead_reg : (rtcRead i s).reg = s.reg := by unfold rtcRead; split <;> rfl
@[simp] theorem rtcRead_currentRomBank : (rtcRead i s).currentRomBank = s.currentRomBank := by
  unfold rtcRead; split <;> rfl
@[simp] theorem rtcRead_currentRamBank : (rtcRead i s).currentRamBank = s.currentRamBank := by
  unfold rtcRead; split <;> rfl
@[simp] theorem rtcRead_rtc : (rtcRead i s).rtc = s.rtc := by unfold rtcRead; split <;> rfl
@[simp] theorem rtcRead_stop : (rtcRead i s).stop = s.stop := by unfold rtcRead; split <;> rfl
@[simp] theorem rtcRead_cfg : (rtcRead i s).cfg = s.cfg := by unfold rtcRead; split <;> rfl
@[simp] theorem rtcRead_bus : (rtcRead i s).bus = s.bus := by unfold rtcRead; split <;> rfl
@[simp] theorem rtcRead_clk : (rtcRead i s).clk = s.clk := by unfold rtcRead; split <;> rfl
@[simp] theorem rtcRead_romPort : (rtcRead i s).romPort = s.romPort := by unfold rtcRead; split <;> rfl

/-- An RTC read answers a latched entry, or draws a fresh free value. -/
theorem rtcRead_cases :
    (∃ v, s.rtc.entry i = .latched v ∧ rtcRead i s = answer v s) ∨
    (s.rtc.entry i = .unlatched ∧ rtcRead i s = answerDraw s) := by
  unfold rtcRead
  cases h : s.rtc.entry i with
  | latched v => exact .inl ⟨v, rfl, rfl⟩
  | unlatched => exact .inr ⟨rfl, rfl⟩
end RtcRead

/-! ## What every form leaves alone -/

/-- No form changes the configuration. -/
@[simp] theorem effect_cfg (i : Instr) (s : State) : (effect i s).cfg = s.cfg := by
  cases i <;> simp only [effect, id] <;> (repeat' split) <;> simp

/-- No form takes or adds a transaction of the host. -/
@[simp] theorem effect_bus (i : Instr) (s : State) : (effect i s).bus = s.bus := by
  cases i <;> simp only [effect, id] <;> (repeat' split) <;> simp

/-- No form changes the clock input. -/
@[simp] theorem effect_clk (i : Instr) (s : State) : (effect i s).clk = s.clk := by
  cases i <;> simp only [effect, id] <;> (repeat' split) <;> simp

/-! ## The step -/

/-- What a step can do: it takes the next transaction and runs the form of its word. -/
theorem step_next {s t : State} : step s = .next t ↔
    ∃ (x : BusTxn) (rest : List BusTxn), s.bus = x :: rest ∧
      exec (decode (txnWord s.cfg x)) { s with bus := rest, clk := clkFor x s.clk } = .next t := by
  unfold step fetch
  cases h : s.bus with
  | nil => simp
  | cons x rest => simp

/-- No step changes the configuration. -/
theorem step_cfg {s t : State} (h : step s = .next t) : t.cfg = s.cfg := by
  obtain ⟨x, rest, -, hx⟩ := step_next.1 h
  obtain ⟨-, -, rfl⟩ := exec_next.1 hx
  simp

end Sys2Proof.Machine
end

