-- ==== Sys2Proof/Laws/BankIndex.lean ====
section
/-! SUPPORT. What the operands' masks, the predicates, the bank indices, a ROM read and a step say, each once, in the
terms the statements use. -/

namespace Sys2Proof.Machine

/-! ## Masks (30_encoding.md R97) -/

theorem toNat_low4 (v : Byte) : (low4 v).toNat = v.toNat % 16 := by
  rw [low4, BitVec.toNat_and]; exact Nat.and_two_pow_sub_one_eq_mod _ 4

theorem toNat_low5 (v : Byte) : (low5 v).toNat = v.toNat % 32 := by
  rw [low5, BitVec.toNat_and]; exact Nat.and_two_pow_sub_one_eq_mod _ 5

theorem toNat_low2 (v : Byte) : (low2 v).toNat = v.toNat % 4 := by
  rw [low2, BitVec.toNat_and]; exact Nat.and_two_pow_sub_one_eq_mod _ 2

theorem toNat_low1 (v : Byte) : (low1 v).toNat = v.toNat % 2 := by
  rw [low1, BitVec.toNat_and]; exact Nat.and_two_pow_sub_one_eq_mod _ 1

/-! ## Predicates -/

theorem isRamEnabled_iff (g : RegBank) : isRamEnabled g = true ↔ g.ramEnable.toNat % 16 = 0x0A := by
  rw [isRamEnabled, beq_iff_eq, ← toNat_low4]
  exact ⟨fun h => congrArg BitVec.toNat h, fun h => BitVec.eq_of_toNat_eq h⟩

theorem mbc1LargeRomQuirk_iff (cfg : Cfg) (g : RegBank) : mbc1LargeRomQuirk cfg g = true ↔
    (famOf cfg = .mbc1 ∧ g.bankingMode = 1 ∧ cfg.romGe1MB = true ∧ g.romBankNumber = 0) := by
  simp [mbc1LargeRomQuirk, and_assoc]

theorem readsRtc_iff (cfg : Cfg) (g : RegBank) : readsRtc cfg g = true ↔
    (cfg.hasRam = true ∧ famOf cfg = .mbc3 ∧ g.rtcSelectionMode = 2) := by
  simp [readsRtc, and_assoc, selRtc]

theorem latchEdge_iff (g : RegBank) (v : Byte) : latchEdge g v = true ↔ g.latchTrigger = 0 ∧ v = 1 := by
  simp [latchEdge]

theorem selectsRam_iff (v : Byte) : selectsRam v = true ↔ v.toNat ≤ 3 := by simp [selectsRam]

theorem selectsRtc_iff (v : Byte) : selectsRtc v = true ↔ 8 ≤ v.toNat ∧ v.toNat ≤ 12 := by simp [selectsRtc]

/-! ## Bank indices -/

/-- `high << 5 | low` is a sum where `low` has 5 bits (46_bank_index.md R229). -/
theorem shift5_or {hi lo : Nat} (h : lo < 32) : hi <<< 5 ||| lo = hi * 32 + lo := by
  rw [← Nat.shiftLeft_add_eq_or_of_lt (i := 5) (by omega), Nat.shiftLeft_eq]

/-- `high << 8 | low` is a sum where `low` has 8 bits (46_bank_index.md R229). -/
theorem shift8_or {hi lo : Nat} (h : lo < 256) : hi <<< 8 ||| lo = hi * 256 + lo := by
  rw [← Nat.shiftLeft_add_eq_or_of_lt (i := 8) (by omega), Nat.shiftLeft_eq]

/-- The RAM bank is 0 or the register. -/
theorem computeRamBank_cases (cfg : Cfg) (g : RegBank) :
    computeRamBank cfg g = 0 ∨ computeRamBank cfg g = g.ramBankNumber.toNat := by
  unfold computeRamBank computeRamBankMbc1 computeRamBankMbc3
  split <;> (repeat' split) <;> simp

/-- Under a family with a formula, an accepted configuration gives the ROM bank. -/
theorem computeRomBank_isSome {cfg : Cfg} (h : cfgOk cfg = true) (g : RegBank)
    (hf : famOf cfg = .mbc1 ∨ famOf cfg = .mbc2 ∨ famOf cfg = .mbc3 ∨ famOf cfg = .mbc5) :
    ∃ b, computeRomBank cfg g = some b := by
  rcases hf with hf | hf | hf | hf <;> simp [computeRomBank, hf]
  cases hc : cfg.mbc5RomFormula
  · exact ⟨_, rfl⟩
  · simp [cfgOk, hf, hc, Option.isSome_iff_exists] at h
    obtain ⟨_, f, hg⟩ := h
    simp [computeRomBankLiteral, hg]

/-! ## Reads -/

theorem State.Ready.bankCount {s : State} (h : s.Ready) : 0 < s.cfg.romBankCount := by
  have := h.cfgOk; simp [Sys2Proof.Machine.cfgOk] at this; omega

theorem romRead_in {b : Nat} {s : State} (h : b < s.cfg.romBankCount) (o : RomOff) (a : Addr) :
    romRead b o a s = { s with dout := some (romByte s.cfg b o), romPort := some ⟨b, o⟩ } := by
  simp [romRead, h, answer, present]

theorem romRead_out {b : Nat} {s : State} (h : s.cfg.romBankCount ≤ b) (o : RomOff) (a : Addr) :
    romRead b o a s = { s with stop := .faulted (.romBankOutOfRange b a), romPort := some ⟨b, o⟩ } := by
  have : ¬ b < s.cfg.romBankCount := by omega
  simp [romRead, this, raiseRomFault, present]

/-! ## The step of a transaction handed over -/

/-- The form of a transaction's word is of the configured family. -/
theorem formFamily_decode (cfg : Cfg) (x : BusTxn) :
    ∀ f, formFamily (decode (txnWord cfg x)) = some f → famOf cfg = f := by
  intro f hf
  cases x with
  | read a =>
    rw [txnWord, decode_read, decodeRead_ranges] at hf
    split_ifs at hf <;> cases hf
  | write a v c =>
    rw [txnWord, decode_write] at hf
    unfold decodeWrite at hf
    change famOfCode _ = f
    cases h : famOfCode cfg.famCode <;> rw [h] at hf <;> dsimp only at hf
    · injection hf
    · rw [decodeMbc1_ranges] at hf; split_ifs at hf <;> injection hf
    · rw [decodeMbc2_ranges] at hf; split_ifs at hf <;> injection hf
    · rw [decodeMbc3_ranges] at hf; split_ifs at hf <;> injection hf
    · rw [decodeMbc5_ranges] at hf; split_ifs at hf <;> injection hf
    · split_ifs at hf <;> injection hf

/-- While the block runs, the step of the transaction in hand is the effect of its form. -/
theorem step_ready {s : State} {x : BusTxn} {rest : List BusTxn} (hb : s.bus = x :: rest) (hs : s.Ready) :
    step s = .next (effect (decode (txnWord s.cfg x))
      (clearOutputs { s with bus := rest, clk := clkFor x s.clk })) := by
  have h : step s = exec (decode (txnWord s.cfg x)) { s with bus := rest, clk := clkFor x s.clk } := by
    simp [step, fetch, hb]
  rw [h]
  exact exec_ready ⟨hs.cfgOk, hs.running⟩ (formFamily_decode s.cfg x)

/-- A run of one more step, where that step gives a next state. -/
theorem run_of_step {s t : State} (h : step s = .next t) (k : Nat) : core.run (k + 1) s = core.run k t := by
  simp only [Host.Core.run, show core.step s = .next t from h]

/-- A form that recomputes the ROM bank leaves it at what the new registers give, and leaves the stop. -/
theorem effect_recomputesRom {i : Instr} (h : recomputesRom i = true) {s : State} {b : Nat}
    (hb : computeRomBank s.cfg (effect i s).reg = some b) :
    (effect i s).currentRomBank = b ∧ (effect i s).stop = s.stop := by
  cases i <;> simp [recomputesRom] at h <;> simp [effect] at hb ⊢ <;> simp [hb]

end Sys2Proof.Machine
end

