-- ==== Sys2Proof/Laws/PerInstr.lean ====
section
/-! SUPPORT. Statements about every form as syntax: one lemma per constructor of `Instr`. -/

namespace Sys2Proof.Laws

/-- The fields of a form's word give its direction and its address back. -/
def EncodeFields.Statement (i : Instr) : Prop :=
  dirField (encode i) = (if instrIsWrite i then 1 else 0) ∧ addrField (encode i) = instrAddr i

theorem EncodeFields.rdRom0 (fam : FamCode) (a : Addr) : EncodeFields.Statement (.rdRom0 fam a) := by
  simp [EncodeFields.Statement, encode, instrIsWrite, instrAddr]

theorem EncodeFields.rdRomx (fam : FamCode) (a : Addr) : EncodeFields.Statement (.rdRomx fam a) := by
  simp [EncodeFields.Statement, encode, instrIsWrite, instrAddr]

theorem EncodeFields.rdOpenLow (fam : FamCode) (a : Addr) : EncodeFields.Statement (.rdOpenLow fam a) := by
  simp [EncodeFields.Statement, encode, instrIsWrite, instrAddr]

theorem EncodeFields.rdXram (fam : FamCode) (a : Addr) : EncodeFields.Statement (.rdXram fam a) := by
  simp [EncodeFields.Statement, encode, instrIsWrite, instrAddr]

theorem EncodeFields.rdOpenHigh (fam : FamCode) (a : Addr) : EncodeFields.Statement (.rdOpenHigh fam a) := by
  simp [EncodeFields.Statement, encode, instrIsWrite, instrAddr]

theorem EncodeFields.wrIgnoreNoMbc (a : Addr) (v : Byte) : EncodeFields.Statement (.wrIgnoreNoMbc a v) := by
  simp [EncodeFields.Statement, encode, instrIsWrite, instrAddr]

theorem EncodeFields.mbc1Ramen (a : Addr) (v : Byte) : EncodeFields.Statement (.mbc1Ramen a v) := by
  simp [EncodeFields.Statement, encode, instrIsWrite, instrAddr]

theorem EncodeFields.mbc1Romb (a : Addr) (v : Byte) : EncodeFields.Statement (.mbc1Romb a v) := by
  simp [EncodeFields.Statement, encode, instrIsWrite, instrAddr]

theorem EncodeFields.mbc1Ramb (a : Addr) (v : Byte) : EncodeFields.Statement (.mbc1Ramb a v) := by
  simp [EncodeFields.Statement, encode, instrIsWrite, instrAddr]

theorem EncodeFields.mbc1Mode (a : Addr) (v : Byte) : EncodeFields.Statement (.mbc1Mode a v) := by
  simp [EncodeFields.Statement, encode, instrIsWrite, instrAddr]

theorem EncodeFields.wrIgnoreMbc1 (a : Addr) (v : Byte) : EncodeFields.Statement (.wrIgnoreMbc1 a v) := by
  simp [EncodeFields.Statement, encode, instrIsWrite, instrAddr]

theorem EncodeFields.mbc2Romb (a : Addr) (v : Byte) : EncodeFields.Statement (.mbc2Romb a v) := by
  simp [EncodeFields.Statement, encode, instrIsWrite, instrAddr]

theorem EncodeFields.mbc2Ramen (a : Addr) (v : Byte) : EncodeFields.Statement (.mbc2Ramen a v) := by
  simp [EncodeFields.Statement, encode, instrIsWrite, instrAddr]

theorem EncodeFields.wrIgnoreMbc2Low (a : Addr) (v : Byte) : EncodeFields.Statement (.wrIgnoreMbc2Low a v) := by
  simp [EncodeFields.Statement, encode, instrIsWrite, instrAddr]

theorem EncodeFields.wrIgnoreMbc2High (a : Addr) (v : Byte) : EncodeFields.Statement (.wrIgnoreMbc2High a v) := by
  simp [EncodeFields.Statement, encode, instrIsWrite, instrAddr]

theorem EncodeFields.mbc3Ramen (a : Addr) (v : Byte) : EncodeFields.Statement (.mbc3Ramen a v) := by
  simp [EncodeFields.Statement, encode, instrIsWrite, instrAddr]

theorem EncodeFields.mbc3Romb (a : Addr) (v : Byte) : EncodeFields.Statement (.mbc3Romb a v) := by
  simp [EncodeFields.Statement, encode, instrIsWrite, instrAddr]

theorem EncodeFields.mbc3Sel (a : Addr) (v : Byte) : EncodeFields.Statement (.mbc3Sel a v) := by
  simp [EncodeFields.Statement, encode, instrIsWrite, instrAddr]

theorem EncodeFields.mbc3Latch (a : Addr) (v : Byte) : EncodeFields.Statement (.mbc3Latch a v) := by
  simp [EncodeFields.Statement, encode, instrIsWrite, instrAddr]

theorem EncodeFields.wrIgnoreMbc3 (a : Addr) (v : Byte) : EncodeFields.Statement (.wrIgnoreMbc3 a v) := by
  simp [EncodeFields.Statement, encode, instrIsWrite, instrAddr]

theorem EncodeFields.mbc5Ramen (a : Addr) (v : Byte) : EncodeFields.Statement (.mbc5Ramen a v) := by
  simp [EncodeFields.Statement, encode, instrIsWrite, instrAddr]

theorem EncodeFields.mbc5RombLo (a : Addr) (v : Byte) : EncodeFields.Statement (.mbc5RombLo a v) := by
  simp [EncodeFields.Statement, encode, instrIsWrite, instrAddr]

theorem EncodeFields.mbc5RombHi (a : Addr) (v : Byte) : EncodeFields.Statement (.mbc5RombHi a v) := by
  simp [EncodeFields.Statement, encode, instrIsWrite, instrAddr]

theorem EncodeFields.mbc5Ramb (a : Addr) (v : Byte) : EncodeFields.Statement (.mbc5Ramb a v) := by
  simp [EncodeFields.Statement, encode, instrIsWrite, instrAddr]

theorem EncodeFields.wrIgnoreMbc5Low (a : Addr) (v : Byte) : EncodeFields.Statement (.wrIgnoreMbc5Low a v) := by
  simp [EncodeFields.Statement, encode, instrIsWrite, instrAddr]

theorem EncodeFields.wrIgnoreMbc5High (a : Addr) (v : Byte) : EncodeFields.Statement (.wrIgnoreMbc5High a v) := by
  simp [EncodeFields.Statement, encode, instrIsWrite, instrAddr]

theorem EncodeFields.wrFatal5 (a : Addr) (v : Byte) : EncodeFields.Statement (.wrFatal5 a v) := by
  simp [EncodeFields.Statement, encode, instrIsWrite, instrAddr]

theorem EncodeFields.wrFatal67 (fam : FamCode) (a : Addr) (v : Byte) : EncodeFields.Statement (.wrFatal67 fam a v) := by
  simp [EncodeFields.Statement, encode, instrIsWrite, instrAddr]

end Sys2Proof.Laws
end

