-- ==== Sys2Proof/Tests/Slice0.lean ====
section
/-! SUPPORT. The model's own tests.  Expected values are those of 95_test_vectors.md, or of the encoding of
30_encoding.md R90 and R96 written out by hand; a `witness_` theorem shows that the hypotheses of a statement are met. -/

namespace Sys2Proof.Tests

open Sys2Proof Sys2Proof.Machine

/-! ## Helpers -/

/-- A configuration of 95_test_vectors.md section 0 for a family code, a bank count and an image. -/
def testCfg (code : FamCode) (banks : Nat) (image : Memory) : Cfg :=
  { Cfg.atReset with famCode := code, romBankCount := banks, romImage := image }

/-- The state after construction with 128 banks. -/
def testState (code : FamCode) : State := State.ofConfig (testCfg code 128 [])

/-- MBC1 with more than 1 MB of ROM and more than 8 KB of RAM. -/
def bigMbc1 (banks : Nat) (image : Memory) : Cfg :=
  { testCfg 1 banks image with romGe1MB := true, ramGt8KB := true }

/-- MBC5 under LITERAL, with F(0x34) = 77 and F(v) = 9 at every other v. -/
def literalMbc5 : Cfg :=
  { testCfg 4 512 [] with mbc5RomFormula := .literal,
                          mbc5LiteralFn := some ((Vector.replicate 256 9).set 0x34 77) }

/-- The next state of an outcome, where there is one. -/
def nextOf : Host.Outcome State Fault Refusal → Option State
  | .next t => some t
  | .fault _ => none
  | .refused _ => none

/-- The clock sample of V55. -/
def clkA : ClockSample := ⟨0x10, 0x20, 0x03, 0x1FF⟩

/-- The clock sample of V59. -/
def clkB : ClockSample := ⟨0x11, 0x21, 0x04, 0x0⟩

/-! ## Well-formedness: an ill-formed term for each check -/

theorem test_wf_refuses_reads :
    Instr.wf (.rdRom0 1 0x4000) = false ∧ Instr.wf (.rdRomx 1 0x3FFF) = false ∧ Instr.wf (.rdRomx 1 0x8000) = false ∧
    Instr.wf (.rdOpenLow 1 0xA000) = false ∧ Instr.wf (.rdXram 1 0x9FFF) = false ∧
    Instr.wf (.rdXram 1 0xC000) = false ∧ Instr.wf (.rdOpenHigh 1 0xBFFF) = false := by
  decide

theorem test_wf_refuses_mbc1 :
    Instr.wf (.mbc1Ramen 0x2000 0) = false ∧ Instr.wf (.mbc1Romb 0x1FFF 0) = false ∧
    Instr.wf (.mbc1Ramb 0x6000 0) = false ∧ Instr.wf (.mbc1Mode 0x5FFF 0) = false ∧
    Instr.wf (.wrIgnoreMbc1 0x7FFF 0) = false := by
  decide

theorem test_wf_refuses_mbc2 :
    Instr.wf (.mbc2Romb 0x4100 0) = false ∧ Instr.wf (.mbc2Romb 0x3EFF 0) = false ∧
    Instr.wf (.mbc2Ramen 0x4000 0) = false ∧ Instr.wf (.mbc2Ramen 0x0100 0) = false ∧
    Instr.wf (.wrIgnoreMbc2Low 0x3FFF 0) = false ∧ Instr.wf (.wrIgnoreMbc2High 0x7FFF 0) = false := by
  decide

theorem test_wf_refuses_mbc3 :
    Instr.wf (.mbc3Ramen 0x2000 0) = false ∧ Instr.wf (.mbc3Romb 0x4000 0) = false ∧
    Instr.wf (.mbc3Sel 0x3FFF 0) = false ∧ Instr.wf (.mbc3Latch 0x8000 0) = false ∧
    Instr.wf (.wrIgnoreMbc3 0x7FFF 0) = false := by
  decide

theorem test_wf_refuses_mbc5 :
    Instr.wf (.mbc5Ramen 0x2000 0) = false ∧ Instr.wf (.mbc5RombLo 0x3000 0) = false ∧
    Instr.wf (.mbc5RombHi 0x2FFF 0) = false ∧ Instr.wf (.mbc5Ramb 0x6000 0) = false ∧
    Instr.wf (.wrIgnoreMbc5Low 0x5FFF 0) = false ∧ Instr.wf (.wrIgnoreMbc5High 0x7FFF 0) = false := by
  decide

theorem test_wf_refuses_family_codes :
    Instr.wf (.wrFatal67 5 0x0000 0) = false ∧ Instr.wf (.wrFatal67 6 0xFFFF 0) = true ∧
    Instr.wf (.wrFatal67 7 0xFFFF 0) = true := by
  decide

/-! ## Decoding: for every constructor a word written out bit by bit as `FAM W A V` (30_encoding.md R90, R96) -/

theorem test_decode_reads :
    decode 0b0110001111111111111100000000 = .rdRom0 3 0x3FFF ∧
    decode 0b0000010000000000000000000000 = .rdRomx 0 0x4000 ∧
    decode 0b1110100111111111111100000000 = .rdOpenLow 7 0x9FFF ∧
    decode 0b0100101000010010001100000000 = .rdXram 2 0xA123 ∧
    decode 0b1010110000000000000000000000 = .rdOpenHigh 5 0xC000 := by
  decide

theorem test_decode_nombc_and_fatal :
    decode 0b0001001000000000000000000101 = .wrIgnoreNoMbc 0x2000 0x05 ∧
    decode 0b1011110000000000000000000000 = .wrFatal5 0xC000 0x00 ∧
    decode 0b1101001000000000000010000001 = .wrFatal67 6 0x2000 0x81 ∧
    decode 0b1111111111111111111111111111 = .wrFatal67 7 0xFFFF 0xFF := by
  decide

theorem test_decode_mbc1 :
    decode 0b0011000111111111111100011010 = .mbc1Ramen 0x1FFF 0x1A ∧
    decode 0b0011001111111111111111111111 = .mbc1Romb 0x3FFF 0xFF ∧
    decode 0b0011010111111111111100000010 = .mbc1Ramb 0x5FFF 0x02 ∧
    decode 0b0011011111111111111111111110 = .mbc1Mode 0x7FFF 0xFE ∧
    decode 0b0011101000000000000001010101 = .wrIgnoreMbc1 0xA000 0x55 := by
  decide

theorem test_decode_mbc2 :
    decode 0b0101001000010000000000011111 = .mbc2Romb 0x2100 0x1F ∧
    decode 0b0101001111101111111100001010 = .mbc2Ramen 0x3EFF 0x0A ∧
    decode 0b0101011000010000000000000101 = .wrIgnoreMbc2Low 0x6100 0x05 ∧
    decode 0b0101100000010000000000000101 = .wrIgnoreMbc2High 0x8100 0x05 := by
  decide

theorem test_decode_mbc3 :
    decode 0b0111000000000000000000001010 = .mbc3Ramen 0x0000 0x0A ∧
    decode 0b0111001000000000000010000000 = .mbc3Romb 0x2000 0x80 ∧
    decode 0b0111010000000000000000001011 = .mbc3Sel 0x4000 0x0B ∧
    decode 0b0111011000000000000000000001 = .mbc3Latch 0x6000 0x01 ∧
    decode 0b0111101000000000000001010101 = .wrIgnoreMbc3 0xA000 0x55 := by
  decide

theorem test_decode_mbc5 :
    decode 0b1001000111111111111100001010 = .mbc5Ramen 0x1FFF 0x0A ∧
    decode 0b1001001011111111111100110100 = .mbc5RombLo 0x2FFF 0x34 ∧
    decode 0b1001001100000000000011111110 = .mbc5RombHi 0x3000 0xFE ∧
    decode 0b1001010000000000000000001111 = .mbc5Ramb 0x4000 0x0F ∧
    decode 0b1001011000000000000000000001 = .wrIgnoreMbc5Low 0x6000 0x01 ∧
    decode 0b1001100000000000000000000001 = .wrIgnoreMbc5High 0x8000 0x01 := by
  decide

/-- A read's `V` is ignored (R94). -/
theorem test_decode_ignores_v_on_reads : decode 0x24000FF = decode 0x2400000 := by decide

/-- Family codes 5, 6 and 7 are all UNSUPPORTED (R91). -/
theorem test_family_codes : [0, 1, 2, 3, 4, 5, 6, 7].map famOfCode =
    [.noMbc, .mbc1, .mbc2, .mbc3, .mbc5, .unsupported, .unsupported, .unsupported] := by decide

/-- A number with a bit above the word is rejected by name. -/
theorem test_decode_rejects_longer : decodeNat 0x10000000 = .error .notTxn28 := rfl

theorem test_decode_table_word : decodeTableWord 32 0x2410000 = some (.rdRomx 1 0x4100) := by decide

/-- Words of P1 steps 3, 6 and 4, from the terms. -/
theorem test_encode_words : encode (.mbc1Ramb 0x4000 0x02) = 0x3400002 ∧
    encode (.mbc1Mode 0x6000 0x01) = 0x3600001 ∧ encode (.rdRomx 1 0x4005) = 0x2400500 := by decide

/-! ## Reset, memory and the step -/

/-- 10_state.md R53. -/
theorem test_reset : State.reset.currentRomBank = 1 ∧ State.reset.currentRamBank = 0 ∧
    State.reset.reg = ⟨0, 0, 0, 0, 0, 0, 0, 0⟩ ∧ State.reset.stop = .running := by decide

theorem test_reset_memory_wf : Memory.wf State.reset.cfg.romImage = true := by decide

/-- Writing what an unlisted byte reads as removes the cell. -/
theorem test_memory_canonical : Memory.write [(1, 5), (3, 7)] 3 0 = [(1, 5)] ∧
    Memory.write [(1, 5)] 0 4 = [(0, 4), (1, 5)] ∧ Memory.wf [(3, 7), (1, 5)] = false ∧
    Memory.wf [(3, 0)] = false := by decide

/-- P1 step 9's word, handed over to the state after reset: ROM_BANK_NUMBER 5 under MBC1. -/
theorem test_fetch_word_runs :
    (nextOf (step (State.reset.withFetchWord 32 0x3200005))).map (fun t => (t.reg.romBankNumber, t.currentRomBank)) =
      some (5, 5) := by decide

theorem test_step_without_transaction : step State.reset = .refused .noTransaction := rfl

/-- E7 and P5: after FATAL no transaction has a step. -/
theorem test_stopped_step : step { testState 5 with stop := .fatal, bus := [.read 0x4000] } =
    .fault .stoppedFatal := rfl

/-- R51: RAM_GT_8KB without HAS_RAM is refused. -/
theorem test_bad_configuration : construct { testCfg 1 2 [] with ramGt8KB := true, hasRam := false } =
    .refused .badConfiguration := rfl

/-- The text form of 30_encoding.md R103's example, `WR 0x2000, 0x03`. -/
theorem test_asm_text : asmText (.write 0x2000 0x03 clkA) =
    ['W', 'R', ' ', '0', 'x', '2', '0', '0', '0', ',', ' ', '0', 'x', '0', '3'] := by decide

/-! ## One step of every form -/

/-- V31: ROM[32][0x123]. -/
theorem test_rdRom0_quirk : (nextOf (exec (.rdRom0 1 0x0123)
    { State.ofConfig (bigMbc1 128 [(0x80123, 0x43)]) with
      reg := { RegBank.empty with ramBankNumber := 1, bankingMode := 1 } })).map
    (fun t => (t.dout, t.romPort)) = some (some 0x43, some ⟨32, 0x0123⟩) := by decide

/-- V35: quirk bank 96 of 64. -/
theorem test_rdRom0_out_of_range : (nextOf (exec (.rdRom0 1 0x0000)
    { State.ofConfig (bigMbc1 64 []) with
      reg := { RegBank.empty with ramBankNumber := 3, bankingMode := 1 } })).map
    (fun t => (t.dout, t.stop)) = some (none, .faulted (.romBankOutOfRange 96 0x0000)) := by decide

/-- V4: ROM[3][0x3FFF]. -/
theorem test_rdRomx : (nextOf (exec (.rdRomx 1 0x7FFF)
    { State.ofConfig (testCfg 1 128 [(0xFFFF, 0x02)]) with currentRomBank := 3 })).map
    (fun t => (t.dout, t.romPort)) = some (some 0x02, some ⟨3, 0x3FFF⟩) := by decide

/-- V79: bank 2 of 2. -/
theorem test_rdRomx_out_of_range : (nextOf (exec (.rdRomx 1 0x4000)
    { State.ofConfig (testCfg 1 2 []) with currentRomBank := 2 })).map
    (fun t => (t.dout, t.stop)) = some (none, .faulted (.romBankOutOfRange 2 0x4000)) := by decide

/-- V6. -/
theorem test_rdOpenLow : (nextOf (exec (.rdOpenLow 1 0x9FFF)
    (testState 1))).map
    (fun t => t.dout) = some (some 0xFF) := by decide

/-- V7. -/
theorem test_rdOpenHigh : (nextOf (exec (.rdOpenHigh 1 0xC000)
    (testState 1))).map
    (fun t => t.dout) = some (some 0xFF) := by decide

/-- V14: any address reads the selected entry. -/
theorem test_rdXram_latched : (nextOf (exec (.rdXram 3 0xBFFF)
    { testState 3 with
      reg := { RegBank.empty with rtcSelectionMode := selRtc, rtcRegisterNumber := 0x0C }, rtc := rtcOfSample clkA })).map
    (fun t => t.dout) = some (some 0x01) := by decide

/-- V12. -/
theorem test_rdXram_without_ram : (nextOf (exec (.rdXram 3 0xA000)
    { State.ofConfig { testCfg 3 128 [] with hasRam := false } with
      reg := { RegBank.empty with rtcSelectionMode := selRtc, rtcRegisterNumber := 0x08 }, rtc := rtcOfSample clkA })).map
    (fun t => t.dout) = some (some 0xFF) := by decide

/-- V16. -/
theorem test_mbc1Ramen_low_nibble : (nextOf (exec (.mbc1Ramen 0x1FFF 0x1A)
    (testState 1))).map
    (fun t => t.reg.ramEnable) = some 0x0A := by decide

/-- V28. -/
theorem test_mbc1Ramen_resynchronises : (nextOf (exec (.mbc1Ramen 0x0000 0x0A)
    { State.ofConfig (bigMbc1 128 []) with
      reg := { RegBank.empty with ramBankNumber := 2, bankingMode := 1 } })).map
    (fun t => t.currentRamBank) = some 2 := by decide

/-- V21. -/
theorem test_mbc1Romb_zero_remap : (nextOf (exec (.mbc1Romb 0x2000 0x00)
    { testState 1 with reg := { RegBank.empty with ramBankNumber := 2 } })).map
    (fun t => (t.currentRomBank, t.currentRamBank)) = some (65, 0) := by decide

/-- V19. -/
theorem test_mbc1Romb_mask : (nextOf (exec (.mbc1Romb 0x3FFF 0xFF)
    (testState 1))).map
    (fun t => (t.reg.romBankNumber, t.currentRomBank)) = some (0x1F, 31) := by decide

/-- V24. -/
theorem test_mbc1Ramb_simple_mode : (nextOf (exec (.mbc1Ramb 0x5FFF 0xFF)
    (testState 1))).map
    (fun t => (t.reg.ramBankNumber, t.currentRomBank, t.currentRamBank)) = some (3, 97, 0) := by decide

/-- V25. -/
theorem test_mbc1Ramb_advanced_mode : (nextOf (exec (.mbc1Ramb 0x4000 0x03)
    { State.ofConfig (bigMbc1 128 []) with
      reg := { RegBank.empty with ramEnable := 0x0A, bankingMode := 1 } })).map
    (fun t => (t.currentRomBank, t.currentRamBank)) = some (97, 3) := by decide

/-- V27: stale. -/
theorem test_mbc1Mode_ram_disabled : (nextOf (exec (.mbc1Mode 0x6000 0x01)
    { State.ofConfig (bigMbc1 128 []) with reg := { RegBank.empty with ramBankNumber := 2 } })).map
    (fun t => (t.reg.bankingMode, t.currentRamBank)) = some (1, 0) := by decide

/-- V29. -/
theorem test_mbc1Mode_ram_enabled : (nextOf (exec (.mbc1Mode 0x6000 0x01)
    { State.ofConfig (bigMbc1 128 []) with
      reg := { RegBank.empty with ramEnable := 0x0A, ramBankNumber := 2 } })).map
    (fun t => (t.reg.bankingMode, t.currentRamBank)) = some (1, 2) := by decide

/-- V36. -/
theorem test_wrIgnoreMbc1 : (nextOf (exec (.wrIgnoreMbc1 0xA000 0x55)
    (testState 1))).map
    (fun t => (t.currentRomBank, t.reg)) = some (1, RegBank.empty) := by decide

/-- V38. -/
theorem test_mbc2Romb_mask : (nextOf (exec (.mbc2Romb 0x3FFF 0xFF)
    (testState 2))).map
    (fun t => (t.reg.romBankNumber, t.currentRomBank)) = some (0x0F, 15) := by decide

/-- V39. -/
theorem test_mbc2Romb_no_remap : (nextOf (exec (.mbc2Romb 0x0100 0x00)
    { testState 2 with reg := { RegBank.empty with romBankNumber := 5 }, currentRomBank := 5 })).map
    (fun t => t.currentRomBank) = some 0 := by decide

/-- V42. -/
theorem test_mbc2Ramen : (nextOf (exec (.mbc2Ramen 0x2000 0xFF)
    (testState 2))).map
    (fun t => (t.reg.ramEnable, t.reg.romBankNumber)) = some (0x0F, 0) := by decide

/-- V44. -/
theorem test_wrIgnoreMbc2Low : (nextOf (exec (.wrIgnoreMbc2Low 0x6100 0x05)
    (testState 2))).map
    (fun t => (t.currentRomBank, t.reg)) = some (1, RegBank.empty) := by decide

/-- R212. -/
theorem test_wrIgnoreMbc2High : (nextOf (exec (.wrIgnoreMbc2High 0x8100 0x05)
    (testState 2))).map
    (fun t => (t.currentRomBank, t.reg)) = some (1, RegBank.empty) := by decide

/-- R161's example: RTC mode, RAM bank 2 left stale. -/
theorem test_mbc3Ramen : (nextOf (exec (.mbc3Ramen 0x0000 0x0A)
    { testState 3 with
      reg := { RegBank.empty with rtcSelectionMode := selRtc, ramBankNumber := 2 }, currentRamBank := 2 })).map
    (fun t => (t.reg.ramEnable, t.currentRamBank)) = some (0x0A, 0) := by decide

/-- V48. -/
theorem test_mbc3Romb_no_remap : (nextOf (exec (.mbc3Romb 0x2000 0x80)
    (testState 3))).map
    (fun t => (t.reg.romBankNumber, t.currentRomBank)) = some (0, 0) := by decide

/-- V47. -/
theorem test_mbc3Romb_mask : (nextOf (exec (.mbc3Romb 0x2000 0xFF)
    (testState 3))).map
    (fun t => (t.reg.romBankNumber, t.currentRomBank)) = some (0x1F, 31) := by decide

/-- V50. -/
theorem test_mbc3Sel_rtc : (nextOf (exec (.mbc3Sel 0x4000 0x0A)
    { testState 3 with
      reg := { RegBank.empty with rtcSelectionMode := selRam, ramBankNumber := 2 }, currentRamBank := 2 })).map
    (fun t => (t.reg.rtcSelectionMode, t.reg.rtcRegisterNumber, t.reg.ramBankNumber, t.currentRamBank)) = some (2, 0x0A, 2, 2) := by decide

/-- V51. -/
theorem test_mbc3Sel_none : (nextOf (exec (.mbc3Sel 0x4000 0x04)
    { testState 3 with
      reg := { RegBank.empty with rtcSelectionMode := selRtc, rtcRegisterNumber := 0x0A } })).map
    (fun t => (t.reg.rtcSelectionMode, t.reg.rtcRegisterNumber)) = some (0, 0x0A) := by decide

/-- V55. -/
theorem test_mbc3Latch_edge : (nextOf (exec (.mbc3Latch 0x6000 0x01)
    { testState 3 with clk := clkA })).map
    (fun t => (t.reg.latchTrigger, t.rtc)) = some (1, ⟨.latched 0x10, .latched 0x20, .latched 0x03, .latched 0xFF, .latched 0x01⟩) := by decide

/-- V56. -/
theorem test_mbc3Latch_no_edge : (nextOf (exec (.mbc3Latch 0x6000 0x01)
    { testState 3 with
      reg := { RegBank.empty with latchTrigger := 1 }, rtc := rtcOfSample clkA, clk := clkB })).map
    (fun t => (t.reg.latchTrigger, t.rtc.seconds, t.rtc.dayLow)) = some (1, .latched 0x10, .latched 0xFF) := by decide

/-- V62. -/
theorem test_wrIgnoreMbc3 : (nextOf (exec (.wrIgnoreMbc3 0xA000 0x55)
    { testState 3 with
      reg := { RegBank.empty with rtcSelectionMode := selRtc, rtcRegisterNumber := 0x08 }, rtc := rtcOfSample clkA })).map
    (fun t => t.rtc.seconds) = some (.latched 0x10) := by decide

/-- V70. -/
theorem test_mbc5Ramen : (nextOf (exec (.mbc5Ramen 0x0000 0x0A)
    { testState 4 with reg := { RegBank.empty with ramBankNumber := 7 } })).map
    (fun t => (t.reg.ramEnable, t.currentRamBank)) = some (0x0A, 7) := by decide

/-- V64. -/
theorem test_mbc5RombLo : (nextOf (exec (.mbc5RombLo 0x2000 0xFF)
    (testState 4))).map
    (fun t => (t.reg.romBankNumber, t.currentRomBank)) = some (0xFF, 255) := by decide

/-- V81. -/
theorem test_mbc5RombLo_literal : (nextOf (exec (.mbc5RombLo 0x2000 0x34)
    (State.ofConfig literalMbc5))).map
    (fun t => (t.reg.romBankNumber, t.currentRomBank)) = some (0x34, 77) := by decide

/-- V66. -/
theorem test_mbc5RombHi : (nextOf (exec (.mbc5RombHi 0x3000 0x01)
    { testState 4 with reg := { RegBank.empty with romBankNumber := 0x34 } })).map
    (fun t => (t.reg.highRomBankBit, t.currentRomBank)) = some (1, 308) := by decide

/-- V82. -/
theorem test_mbc5RombHi_literal : (nextOf (exec (.mbc5RombHi 0x3000 0x01)
    { State.ofConfig literalMbc5 with reg := { RegBank.empty with romBankNumber := 0x34 } })).map
    (fun t => (t.reg.highRomBankBit, t.currentRomBank)) = some (1, 77) := by decide

/-- V69. -/
theorem test_mbc5Ramb : (nextOf (exec (.mbc5Ramb 0x4000 0xFF)
    (testState 4))).map
    (fun t => (t.reg.ramBankNumber, t.currentRamBank)) = some (0xFF, 255) := by decide

/-- V71. -/
theorem test_wrIgnoreMbc5Low : (nextOf (exec (.wrIgnoreMbc5Low 0x6000 0x01)
    (testState 4))).map
    (fun t => (t.currentRomBank, t.reg)) = some (1, RegBank.empty) := by decide

/-- R212. -/
theorem test_wrIgnoreMbc5High : (nextOf (exec (.wrIgnoreMbc5High 0x8000 0x01)
    (testState 4))).map
    (fun t => (t.currentRomBank, t.reg)) = some (1, RegBank.empty) := by decide

/-- V74. -/
theorem test_wrIgnoreNoMbc : (nextOf (exec (.wrIgnoreNoMbc 0x2000 0x05)
    (testState 0))).map
    (fun t => (t.currentRomBank, t.reg, t.stop)) = some (1, RegBank.empty, .running) := by decide

/-- V76. -/
theorem test_wrFatal5 : (nextOf (exec (.wrFatal5 0xC000 0x00)
    (testState 5))).map
    (fun t => (t.stop, t.currentRomBank)) = some (.fatal, 1) := by decide

/-- R215. -/
theorem test_wrFatal67 : (nextOf (exec (.wrFatal67 7 0x0000 0xFF)
    (testState 7))).map
    (fun t => (t.stop, t.currentRomBank)) = some (.fatal, 1) := by decide

/-- V10: an UNLATCHED entry reads as a fresh free value, and the next draw is another one. -/
theorem test_rdXram_unlatched : exec (.rdXram 3 0xA000) { testState 3 with
      reg := { RegBank.empty with rtcSelectionMode := selRtc, rtcRegisterNumber := 0x08 } } =
    .next { testState 3 with
      reg := { RegBank.empty with rtcSelectionMode := selRtc, rtcRegisterNumber := 0x08 }
      dout := some (Config.draw8 0), draws := 1 } := rfl

/-! ## Witnesses: a state and operands that meet the hypotheses of each statement -/

theorem testState_ready (code : FamCode) : (testState code).Ready := by
  constructor
  · show cfgOk _ = true
    simp [testState, testCfg, cfgOk, State.ofConfig, Cfg.atReset, Memory.wf, Memory.risesFrom, Memory.below]
  · rfl

theorem witness_DecodeInvertsEncode :
    ∃ i : Instr, i.wf = true :=
  ⟨.mbc2Romb 0x3FFF 0xFF, by decide⟩

/-- A write word, and a read word with `V` = 0. -/
theorem witness_WordsDecodeToWellFormedForms :
    (∃ t : Txn28, dirField t = 1) ∧ ∃ t : Txn28, dirField t = 0 ∧ valueField t = 0 :=
  ⟨⟨0x3200005, by decide⟩, 0x2400000, by decide, by decide⟩

theorem witness_ExactlyOneTableRowMatches :
    ∃ (t : Txn28) (q : OpcodeRow), opcodeTable[27]? = some q ∧ rowMatches q t = true :=
  ⟨0xF000000, ⟨"WR_FATAL", 0xD000000, 0xD000000⟩, by decide, by decide⟩

theorem witness_StepRunsTheDecodedTransaction :
    ∃ s t : State, s.bus = .read 0x4000 :: [] ∧ t.bus = .write 0x2000 5 clkA :: [] :=
  ⟨{ testState 1 with bus := [.read 0x4000] }, { testState 1 with bus := [.write 0x2000 5 clkA] }, rfl, rfl⟩

theorem witness_HandedOverWordRunsNext :
    ∃ w : Nat, w < 2 ^ 28 :=
  ⟨0xFFFFFFF, by decide⟩

theorem witness_EveryBusAddressIsDefined :
    ∃ s t : State, s.Ready ∧ s.bus = .read 0xFFFF :: [] ∧ t.Ready ∧ t.bus = .write 0xFFFF 5 clkA :: [] :=
  ⟨{ testState 3 with bus := [.read 0xFFFF] }, { testState 5 with bus := [.write 0xFFFF 5 clkA] },
    ⟨by decide, rfl⟩, rfl, ⟨by decide, rfl⟩, rfl⟩

/-- Each kind of stop under a form of the family, and a block with nothing handed over. -/
theorem witness_StoppedBlockHasNoStep :
    (∃ (i : Instr) (s : State), cfgOk s.cfg = true ∧ (∀ f, formFamily i = some f → famOf s.cfg = f) ∧ s.stop = .fatal) ∧
    (∃ (i : Instr) (s : State), cfgOk s.cfg = true ∧ (∀ f, formFamily i = some f → famOf s.cfg = f) ∧
      s.stop = .faulted (.romBankOutOfRange 2 0x4000)) ∧
    ∃ s : State, s.bus = [] :=
  ⟨⟨.wrFatal5 0 0, { testState 5 with stop := .fatal }, by decide, by intro f h; injection h, rfl⟩,
    ⟨.mbc1Mode 0x6000 0, { testState 1 with stop := .faulted (.romBankOutOfRange 2 0x4000) }, by decide,
      by intro f h; injection h, rfl⟩, State.reset, rfl⟩

theorem witness_ConstructionLeavesTheResetValues :
    ∃ cfg : Cfg, cfgOk cfg = true :=
  ⟨testCfg 1 2 [(3, 7)], by decide⟩

/-- Each of the three checks. -/
theorem witness_BadConfigurationIsRefused :
    (∃ cfg : Cfg, cfg.romBankCount = 0) ∧ (∃ cfg : Cfg, cfg.ramGt8KB = true ∧ cfg.hasRam = false) ∧
    ∃ cfg : Cfg, famOf cfg = .mbc5 ∧ cfg.mbc5RomFormula = .literal ∧ cfg.mbc5LiteralFn = none :=
  ⟨⟨testCfg 1 0 [], rfl⟩, ⟨{ testCfg 1 2 [] with ramGt8KB := true, hasRam := false }, rfl, rfl⟩,
    { testCfg 4 2 [] with mbc5RomFormula := .literal }, by decide, rfl, rfl⟩

theorem witness_ConstructedStatesMeetTheInvariant :
    ∃ (cfg : Cfg) (s : State), construct cfg = .next s :=
  ⟨testCfg 1 128 [], testState 1, rfl⟩

/-- A state after construction meets the invariant, whatever the family code: used by the witnesses below. -/
theorem testState_inv (code : FamCode) : (testState code).Inv where
  cfg := (testState_ready code).cfgOk
  widths := by
    intro r
    have h : ∀ f, 0 < regLimit f r := by intro f; cases r <;> cases f <;> decide
    cases r <;> exact h _
  rtcIndex := by intro h; exact absurd (show (0#8 : Byte) = selRtc from h) (by decide)
  romBank := .inr ⟨rfl, rfl, rfl⟩
  romBankMbc1 := fun _ => rfl
  ramBank := .inl rfl
  ramBankFresh := by
    left
    show 0 = computeRamBank (testCfg code 128 []) RegBank.empty
    unfold computeRamBank; cases famOf (testCfg code 128 []) <;> rfl
  ramBankSmall := fun _ _ => rfl
  rtcLegal := .inl rfl
  rtcFamily := fun _ => rfl
  fatal := fun h => by cases h

theorem witness_EveryStepKeepsTheInvariant :
    ∃ s t : State, s.Inv ∧ step s = .next t :=
  ⟨testState 0 |> fun s => { s with bus := [.read 0x8000] }, { testState 0 with dout := some 0xFF },
    by obtain ⟨h1, h2, h3, h4, h5, h6, h7, h8, h9, h10, h11⟩ := testState_inv 0; exact ⟨h1, h2, h3, h4, h5, h6, h7, h8, h9, h10, h11⟩, rfl⟩

/-- Every family, and both MBC5 formulas. -/
theorem witness_RomBankRangeByFamily :
    (∀ code : FamCode, (testState code).Inv) ∧ famOf (testState 1).cfg = .mbc1 ∧ famOf (testState 2).cfg = .mbc2 ∧
    famOf (testState 3).cfg = .mbc3 ∧ famOf (testState 4).cfg = .mbc5 ∧
    (testState 4).cfg.mbc5RomFormula = .corrected ∧ famOf (testState 0).cfg = .noMbc ∧
    famOf (testState 7).cfg = .unsupported :=
  ⟨testState_inv, by decide, by decide, by decide, by decide, rfl, by decide, by decide⟩

/-- The LITERAL clause of RomBankRangeByFamily. -/
theorem witness_RomBankRange_literal :
    ∃ s : State, s.Inv ∧ famOf s.cfg = .mbc5 ∧ s.cfg.mbc5RomFormula = .literal :=
  ⟨State.ofConfig literalMbc5,
    { cfg := by decide
      widths := by intro r; cases r <;> decide
      rtcIndex := fun h => absurd h (by decide)
      romBank := .inr ⟨rfl, rfl, rfl⟩
      romBankMbc1 := fun _ => rfl
      ramBank := .inl rfl
      ramBankFresh := .inl (by decide)
      ramBankSmall := fun _ _ => rfl
      rtcLegal := .inl rfl
      rtcFamily := fun _ => rfl
      fatal := fun h => by cases h }, by decide, rfl⟩

/-- Both ends of the window; the last bank of the image, and the first one past it. -/
theorem witness_SwitchableWindowRead :
    (0x4000 : Addr).toNat = 0x4000 ∧ (0x7FFF : Addr).toNat = 0x7FFF ∧
    (∃ s : State, s.Ready ∧ s.currentRomBank + 1 = s.cfg.romBankCount) ∧
    ∃ s : State, s.Ready ∧ s.currentRomBank = s.cfg.romBankCount :=
  ⟨rfl, rfl, ⟨{ testState 4 with currentRomBank := 127 }, ⟨by decide, rfl⟩, rfl⟩,
    { testState 4 with currentRomBank := 128 }, ⟨by decide, rfl⟩, rfl⟩

/-- The last address; no quirk; the quirk with its bank in the image, and with the first bank past it. -/
theorem witness_FixedWindowRead :
    (0x3FFF : Addr).toNat ≤ 0x3FFF ∧
    (∃ s : State, s.Ready ∧ ¬(famOf s.cfg = .mbc1 ∧ s.reg.bankingMode = 1 ∧ s.cfg.romGe1MB = true ∧ s.reg.romBankNumber = 0)) ∧
    (∃ s : State, s.Ready ∧ famOf s.cfg = .mbc1 ∧ s.reg.bankingMode = 1 ∧ s.cfg.romGe1MB = true ∧
      s.reg.romBankNumber = 0 ∧ s.reg.ramBankNumber.toNat * 32 + 1 = s.cfg.romBankCount) ∧
    ∃ s : State, s.Ready ∧ famOf s.cfg = .mbc1 ∧ s.reg.bankingMode = 1 ∧ s.cfg.romGe1MB = true ∧
      s.reg.romBankNumber = 0 ∧ s.cfg.romBankCount = s.reg.ramBankNumber.toNat * 32 :=
  ⟨by decide, ⟨testState 3, ⟨by decide, rfl⟩, by decide⟩,
    ⟨{ State.ofConfig (bigMbc1 97 []) with reg := { RegBank.empty with ramBankNumber := 3, bankingMode := 1 } },
      ⟨by decide, rfl⟩, by decide, rfl, rfl, rfl, by decide⟩,
    { State.ofConfig (bigMbc1 96 []) with reg := { RegBank.empty with ramBankNumber := 3, bankingMode := 1 } },
      ⟨by decide, rfl⟩, by decide, rfl, rfl, rfl, by decide⟩

/-- MBC3 with RAM, in RTC mode with an index selected and a given file. -/
def rtcState (index : Byte) (file : RtcFile) : State :=
  { testState 3 with
    reg := { RegBank.empty with rtcSelectionMode := 2, rtcRegisterNumber := index }
    rtc := file }

theorem rtcState_premises (index : Byte) (file : RtcFile) : (rtcState index file).Ready ∧
    (rtcState index file).cfg.hasRam = true ∧ famOf (rtcState index file).cfg = .mbc3 ∧
    (rtcState index file).reg.rtcSelectionMode = 2 :=
  ⟨⟨(testState_ready 3).cfgOk, rfl⟩, rfl, show famOf (testState 3).cfg = .mbc3 by decide, rfl⟩

/-- The three reasons for 0xFF. -/
theorem witness_RamRtcWindowRead_open :
    (∃ s : State, s.Ready ∧ s.cfg.hasRam = false) ∧ (∃ s : State, s.Ready ∧ famOf s.cfg ≠ .mbc3) ∧
    ∃ s : State, s.Ready ∧ famOf s.cfg = .mbc3 ∧ s.reg.rtcSelectionMode ≠ 2 :=
  ⟨⟨State.ofConfig { testCfg 3 2 [] with hasRam := false }, ⟨by decide, rfl⟩, rfl⟩, ⟨testState 5, ⟨by decide, rfl⟩, by decide⟩,
    testState 3, ⟨by decide, rfl⟩, by decide, by decide⟩

/-- Each index, latched (with rtcState_premises). -/
theorem witness_RamRtcWindowRead_latched :
    ∀ v, v = clkA.sec →
    ((rtcState 0x08 (rtcOfSample clkA)).rtc.seconds = .latched v) ∧
    ((rtcState 0x09 (rtcOfSample clkA)).rtc.minutes = .latched 0x20) ∧
    ((rtcState 0x0A (rtcOfSample clkA)).rtc.hours = .latched 0x03) ∧
    ((rtcState 0x0B (rtcOfSample clkA)).rtc.dayLow = .latched 0xFF) ∧
    ((rtcState 0x0C (rtcOfSample clkA)).rtc.dayHigh = .latched 0x01) :=
  by rintro _ rfl; decide

/-- Each index, UNLATCHED, and an index on each side of the file (with rtcState_premises). -/
theorem witness_RamRtcWindowRead_unlatched :
    (rtcState 0x08 RtcFile.unlatched).rtc.seconds = .unlatched ∧
    (rtcState 0x09 RtcFile.unlatched).rtc.minutes = .unlatched ∧
    (rtcState 0x0A RtcFile.unlatched).rtc.hours = .unlatched ∧
    (rtcState 0x0B RtcFile.unlatched).rtc.dayLow = .unlatched ∧
    (rtcState 0x0C RtcFile.unlatched).rtc.dayHigh = .unlatched ∧
    (rtcState 0x07 (rtcOfSample clkA)).reg.rtcRegisterNumber.toNat < 0x08 ∧
    0x0C < (rtcState 0x0D (rtcOfSample clkA)).reg.rtcRegisterNumber.toNat :=
  by decide

theorem witness_OpenRegionRead :
    ∃ s : State, s.Ready :=
  ⟨testState 6, testState_ready 6⟩

/-- A read that answers, and one that stops. -/
theorem witness_ReadsChangeNoState :
    (∃ t, instrIsWrite (.rdOpenLow 1 0x8000) = false ∧ exec (.rdOpenLow 1 0x8000) (testState 1) = .next t) ∧
    ∃ t, exec (.rdRomx 1 0x4000) (State.ofConfig (testCfg 1 1 [])) = .next t ∧
      t.stop = .faulted (.romBankOutOfRange 1 0x4000) :=
  ⟨⟨_, rfl, rfl⟩, _, rfl, rfl⟩

/-- Each clause at a boundary address. -/
theorem witness_ReadFollowsTheFourSteps :
    (∃ s : State, s.Ready ∧ s.bus = .read 0x7FFF :: [] ∧ s.currentRomBank < s.cfg.romBankCount) ∧
    (∃ s : State, s.Ready ∧ s.bus = .read 0x3FFF :: [] ∧ famOf s.cfg = .mbc1 ∧ s.reg.bankingMode = 1 ∧
      s.cfg.romGe1MB = true ∧ s.reg.romBankNumber = 0 ∧ s.reg.ramBankNumber.toNat <<< 5 < s.cfg.romBankCount) ∧
    (∃ s : State, s.Ready ∧ s.bus = .read 0x3FFF :: [] ∧ ¬famOf s.cfg = .mbc1) ∧
    (∃ (s : State) (v : Byte), s.Ready ∧ s.bus = .read 0xBFFF :: [] ∧ s.cfg.hasRam = true ∧ famOf s.cfg = .mbc3 ∧
      s.reg.rtcSelectionMode = 2 ∧ s.rtc.entry s.reg.rtcRegisterNumber = .latched v) ∧
    (∃ s : State, s.Ready ∧ s.bus = .read 0x8000 :: []) ∧
    ∃ s : State, s.Ready ∧ s.bus = .read 0xA000 :: [] ∧ famOf s.cfg ≠ .mbc3 :=
  ⟨⟨{ testState 1 with bus := [.read 0x7FFF] }, ⟨by decide, rfl⟩, rfl, by decide⟩,
    ⟨{ State.ofConfig (bigMbc1 97 []) with
        reg := { RegBank.empty with ramBankNumber := 3, bankingMode := 1 }, bus := [.read 0x3FFF] },
      ⟨by decide, rfl⟩, rfl, by decide, rfl, rfl, rfl, by decide⟩,
    ⟨{ testState 2 with bus := [.read 0x3FFF] }, ⟨by decide, rfl⟩, rfl, by decide⟩,
    ⟨{ rtcState 0x0C (rtcOfSample clkA) with bus := [.read 0xBFFF] }, 0x01, ⟨by decide, rfl⟩, rfl, rfl, by decide, rfl, by decide⟩,
    ⟨{ testState 3 with bus := [.read 0x8000] }, ⟨by decide, rfl⟩, rfl⟩,
    { testState 1 with bus := [.read 0xA000] }, ⟨by decide, rfl⟩, rfl, by decide⟩

theorem witness_NoMbcAndUnsupportedReads :
    (testState 0).Inv ∧ (testState 0).stop = .running ∧ famOf (testState 0).cfg = .noMbc ∧
    (testState 7).Inv ∧ famOf (testState 7).cfg = .unsupported ∧ 1 < (testState 7).cfg.romBankCount :=
  ⟨testState_inv 0, rfl, by decide, testState_inv 7, by decide, by decide⟩

theorem witness_ReadsIgnoreRamEnableAndRamBank :
    ∃ t, instrIsWrite (.rdRomx 1 0x4000) = false ∧ exec (.rdRomx 1 0x4000) (testState 1) = .next t :=
  ⟨_, rfl, rfl⟩

/-- The families of the write statements: a block of each, running (with testState_ready). -/
theorem witness_families : famOf (testState 0).cfg = .noMbc ∧ famOf (testState 1).cfg = .mbc1 ∧
    famOf (testState 2).cfg = .mbc2 ∧ famOf (testState 3).cfg = .mbc3 ∧ famOf (testState 4).cfg = .mbc5 ∧
    famOf (testState 5).cfg = .unsupported ∧ famOf (testState 6).cfg = .unsupported ∧
    famOf (testState 7).cfg = .unsupported := by decide

/-- The ends of the address range. -/
theorem witness_Mbc1RamEnableWrite :
    (testState 1).Ready ∧ famOf (testState 1).cfg = .mbc1 ∧ (0x1FFF : Addr).toNat ≤ 0x1FFF :=
  ⟨testState_ready 1, by decide, by decide⟩

/-- The ends of the address range. -/
theorem witness_Mbc1RomBankWrite :
    (testState 1).Ready ∧ famOf (testState 1).cfg = .mbc1 ∧ 0x2000 ≤ (0x2000 : Addr).toNat ∧ (0x3FFF : Addr).toNat ≤ 0x3FFF :=
  ⟨testState_ready 1, by decide, by decide, by decide⟩

/-- The ends of the address range. -/
theorem witness_Mbc1RamBankWrite :
    (testState 1).Ready ∧ famOf (testState 1).cfg = .mbc1 ∧ 0x4000 ≤ (0x4000 : Addr).toNat ∧ (0x5FFF : Addr).toNat ≤ 0x5FFF :=
  ⟨testState_ready 1, by decide, by decide, by decide⟩

/-- The ends of the address range. -/
theorem witness_Mbc1ModeWrite :
    (testState 1).Ready ∧ famOf (testState 1).cfg = .mbc1 ∧ 0x6000 ≤ (0x6000 : Addr).toNat ∧ (0x7FFF : Addr).toNat ≤ 0x7FFF :=
  ⟨testState_ready 1, by decide, by decide, by decide⟩

/-- The ends of the address range. -/
theorem witness_Mbc2RomBankWrite :
    (testState 2).Ready ∧ famOf (testState 2).cfg = .mbc2 ∧ (0x3FFF : Addr).toNat ≤ 0x3FFF ∧ (0x3FFF : Addr).toNat / 0x100 % 2 = 1 :=
  ⟨testState_ready 2, by decide, by decide, by decide⟩

/-- The ends of the address range. -/
theorem witness_Mbc2RamEnableWrite :
    (testState 2).Ready ∧ famOf (testState 2).cfg = .mbc2 ∧ (0x3EFF : Addr).toNat ≤ 0x3FFF ∧ (0x3EFF : Addr).toNat / 0x100 % 2 = 0 :=
  ⟨testState_ready 2, by decide, by decide, by decide⟩

/-- The ends of the address range. -/
theorem witness_Mbc3RamEnableWrite :
    (testState 3).Ready ∧ famOf (testState 3).cfg = .mbc3 ∧ (0x1FFF : Addr).toNat ≤ 0x1FFF :=
  ⟨testState_ready 3, by decide, by decide⟩

/-- The ends of the address range. -/
theorem witness_Mbc3RomBankWrite :
    (testState 3).Ready ∧ famOf (testState 3).cfg = .mbc3 ∧ 0x2000 ≤ (0x2000 : Addr).toNat ∧ (0x3FFF : Addr).toNat ≤ 0x3FFF :=
  ⟨testState_ready 3, by decide, by decide, by decide⟩

/-- The ends of the address range, and of each range of the value. -/
theorem witness_Mbc3SelectionWrite :
    (testState 3).Ready ∧ famOf (testState 3).cfg = .mbc3 ∧ 0x4000 ≤ (0x4000 : Addr).toNat ∧ (0x5FFF : Addr).toNat ≤ 0x5FFF ∧ (0x03 : Byte).toNat ≤ 0x03 ∧ 0x08 ≤ (0x08 : Byte).toNat ∧ (0x0C : Byte).toNat ≤ 0x0C ∧ 0x03 < (0x04 : Byte).toNat ∧ (0x07 : Byte).toNat < 0x08 ∧ 0x0C < (0x0D : Byte).toNat :=
  ⟨testState_ready 3, by decide, by decide, by decide, by decide, by decide, by decide, by decide, by decide, by decide⟩

/-- The edge, a trigger that is not 0, and a value that is not 1. -/
theorem witness_Mbc3LatchWrite :
    (testState 3).Ready ∧ famOf (testState 3).cfg = .mbc3 ∧ (testState 3).reg.latchTrigger = 0 ∧
    (∃ s : State, s.Ready ∧ famOf s.cfg = .mbc3 ∧ s.reg.latchTrigger ≠ 0) ∧ (0x81 : Byte) ≠ 1 ∧
    0x6000 ≤ (0x6000 : Addr).toNat ∧ (0x7FFF : Addr).toNat ≤ 0x7FFF :=
  ⟨testState_ready 3, by decide, rfl, ⟨{ testState 3 with reg := { RegBank.empty with latchTrigger := 2 } },
    ⟨by decide, rfl⟩, by decide, by decide⟩, by decide, by decide, by decide⟩

theorem witness_LatchSequenceSamplesOnce :
    ∃ s : State, s.Ready ∧ famOf s.cfg = .mbc3 ∧
    (∀ a ∈ [(0x6000 : Addr), 0x7FFF, 0x6001], 0x6000 ≤ a.toNat ∧ a.toNat ≤ 0x7FFF) ∧
    s.bus = [.write 0x6000 0 clkB, .write 0x7FFF 1 clkA, .write 0x6001 1 clkB] :=
  ⟨{ testState 3 with bus := [.write 0x6000 0 clkB, .write 0x7FFF 1 clkA, .write 0x6001 1 clkB] },
    ⟨(testState_ready 3).cfgOk, rfl⟩, by decide,
    by intro a ha; simp only [List.mem_cons, List.not_mem_nil, or_false] at ha; rcases ha with rfl | rfl | rfl <;> decide, rfl⟩

theorem witness_RtcChangesOnlyAtALatch :
    ∃ t, exec (.mbc3Latch 0x6000 1) { testState 3 with clk := clkA } = .next t ∧ t.rtc ≠ (testState 3).rtc :=
  ⟨_, rfl, by decide⟩

/-- The ends of the address range. -/
theorem witness_Mbc5RamEnableWrite :
    (testState 4).Ready ∧ famOf (testState 4).cfg = .mbc5 ∧ (0x1FFF : Addr).toNat ≤ 0x1FFF :=
  ⟨testState_ready 4, by decide, by decide⟩

/-- Both formulas, and the ends of the range. -/
theorem witness_Mbc5RomLowWrite :
    (testState 4).Ready ∧ famOf (testState 4).cfg = .mbc5 ∧ (testState 4).cfg.mbc5RomFormula = .corrected ∧
    (State.ofConfig literalMbc5).Ready ∧ famOf literalMbc5 = .mbc5 ∧ literalMbc5.mbc5RomFormula = .literal ∧
    literalMbc5.mbc5LiteralFn = some ((Vector.replicate 256 9).set 0x34 77) ∧
    0x2000 ≤ (0x2000 : Addr).toNat ∧ (0x2FFF : Addr).toNat ≤ 0x2FFF :=
  ⟨testState_ready 4, by decide, rfl, ⟨by decide, rfl⟩, by decide, rfl, rfl, by decide, by decide⟩

/-- The ends of the range; the formulas as in witness_Mbc5RomLowWrite. -/
theorem witness_Mbc5RomHighWrite :
    (testState 4).Ready ∧ famOf (testState 4).cfg = .mbc5 ∧ (testState 4).cfg.mbc5RomFormula = .corrected ∧
    0x3000 ≤ (0x3000 : Addr).toNat ∧ (0x3FFF : Addr).toNat ≤ 0x3FFF :=
  ⟨testState_ready 4, by decide, rfl, by decide, by decide⟩

/-- The ends of the address range. -/
theorem witness_Mbc5RamBankWrite :
    (testState 4).Ready ∧ famOf (testState 4).cfg = .mbc5 ∧ 0x4000 ≤ (0x4000 : Addr).toNat ∧ (0x5FFF : Addr).toNat ≤ 0x5FFF :=
  ⟨testState_ready 4, by decide, by decide, by decide⟩

/-- The families as in witness_families; the ends of the ranges. -/
theorem witness_IgnoredWritesChangeNothing :
    (testState 2).Ready ∧ 0x8000 ≤ (0x8000 : Addr).toNat ∧ 0x4000 ≤ (0x4000 : Addr).toNat ∧
    (0x7FFF : Addr).toNat ≤ 0x7FFF ∧ 0x6000 ≤ (0x6000 : Addr).toNat :=
  ⟨testState_ready 2, by decide, by decide, by decide, by decide⟩

theorem witness_NoMbcWriteIsANoOp :
    ∃ s : State, s.Ready ∧ famOf s.cfg = .noMbc ∧ s.bus = .write 0x2000 5 clkA :: [] :=
  ⟨{ testState 0 with bus := [.write 0x2000 5 clkA] }, ⟨by decide, rfl⟩, by decide, rfl⟩

theorem witness_UnsupportedWriteIsFatal :
    (testState 5).Ready ∧ famOf (testState 5).cfg = .unsupported ∧ ∃ fam : FamCode, fam = 6 ∨ fam = 7 :=
  ⟨testState_ready 5, by decide, 6, .inl rfl⟩

/-- Each of the three ends of a transaction. -/
theorem witness_OnlyTwoStopsArise :
    (∃ t, exec (.rdOpenLow 1 0x8000) (testState 1) = .next t ∧ t.stop = .running) ∧
    (∃ t, exec (.wrFatal5 0x2000 1) (testState 5) = .next t ∧ t.stop = .fatal) ∧
    ∃ t, exec (.rdRomx 1 0x4000) (State.ofConfig (testCfg 1 1 [])) = .next t ∧
      t.stop = .faulted (.romBankOutOfRange 1 0x4000) :=
  ⟨⟨_, rfl, rfl⟩, ⟨_, rfl, rfl⟩, _, rfl, rfl⟩

theorem witness_StopsArePrecise :
    ∃ t, exec (.wrFatal5 0x2000 1) (testState 5) = .next t ∧ t.stop ≠ .running :=
  ⟨_, rfl, by decide⟩

theorem witness_FrameOfEveryForm :
    ∃ t, exec (.mbc3Sel 0x4000 0x08) (testState 3) = .next t ∧ RegName.ramBankNumber ∉ storesTo (.mbc3Sel 0x4000 0x08) :=
  ⟨_, rfl, by decide⟩

/-- A form of each kind. -/
theorem witness_BankIndicesFollowTheRecomputeTable :
    (∃ t, exec (.mbc1Ramb 0x4000 2) (testState 1) = .next t ∧ recomputesRom (.mbc1Ramb 0x4000 2) = true ∧
      recomputesRam (testState 1).reg (.mbc1Ramb 0x4000 2) = true) ∧
    ∃ t, exec (.mbc1Mode 0x6000 1) (testState 1) = .next t ∧ recomputesRom (.mbc1Mode 0x6000 1) = false ∧
      recomputesRam (testState 1).reg (.mbc1Mode 0x6000 1) = false :=
  ⟨⟨_, rfl, rfl, rfl⟩, _, rfl, rfl, by decide⟩

theorem witness_FamiliesWriteOnlyTheirRegisters :
    ∃ t, step { testState 2 with bus := [.write 0x0100 3 clkA] } = .next t ∧
    t.reg.get .romBankNumber ≠ (testState 2).reg.get .romBankNumber :=
  ⟨_, rfl, by decide⟩

theorem witness_StepsNeverChangeTheRom :
    ∃ t, step { testState 1 with bus := [.write 0x2000 3 clkA] } = .next t :=
  ⟨_, rfl⟩

/-- A write, and a read that draws nothing. -/
theorem witness_TransactionsAreIdempotent :
    (∃ t, exec (.mbc3Latch 0x6000 1) (testState 3) = .next t ∧ t.stop = .running) ∧
    ∃ t, exec (.rdRom0 1 0x0000) (testState 1) = .next t ∧ t.stop = .running ∧ t.draws = (testState 1).draws :=
  ⟨⟨_, rfl, rfl⟩, _, rfl, rfl, rfl⟩

/-- A block with a write of `v` to `a0` and then a read of `a1` handed over. -/
def switchState (cfg : Cfg) (a0 a1 : Addr) (v : Byte) : State :=
  { State.ofConfig cfg with bus := [.write a0 v clkA, .read a1] }

/-- Every form that recomputes the ROM bank, MBC1_ROMB with its remapped value and MBC5 under both formulas, and the ends of
the window. -/
theorem witness_NextReadSeesTheBankSwitch :
    ∀ x ∈ [(testCfg 1 128 [], (0x2000 : Addr), (0x4000 : Addr), Instr.mbc1Romb 0x2000 0x20),
        (testCfg 1 128 [], 0x4000, 0x7FFF, .mbc1Ramb 0x4000 0x20), (testCfg 2 16 [], 0x3F00, 0x4000, .mbc2Romb 0x3F00 0x20),
        (testCfg 3 64 [], 0x3FFF, 0x7FFF, .mbc3Romb 0x3FFF 0x20),
        (testCfg 4 512 [], 0x2FFF, 0x4000, .mbc5RombLo 0x2FFF 0x20),
        (testCfg 4 512 [], 0x3000, 0x7FFF, .mbc5RombHi 0x3000 0x20),
        (literalMbc5, 0x2000, 0x4000, .mbc5RombLo 0x2000 0x20), (literalMbc5, 0x3FFF, 0x7FFF, .mbc5RombHi 0x3FFF 0x20)],
    (switchState x.1 x.2.1 x.2.2.1 0x20).Ready ∧
    (switchState x.1 x.2.1 x.2.2.1 0x20).bus = .write x.2.1 0x20 clkA :: .read x.2.2.1 :: [] ∧
    decode (txn28 x.1.famCode 1 x.2.1 0x20) = x.2.2.2 ∧ recomputesRom x.2.2.2 = true ∧
    0x4000 ≤ x.2.2.1.toNat ∧ x.2.2.1.toNat ≤ 0x7FFF :=
  by
  intro x h
  simp only [List.mem_cons, List.not_mem_nil, or_false] at h
  rcases h with rfl | rfl | rfl | rfl | rfl | rfl | rfl | rfl <;>
    exact ⟨⟨by decide, rfl⟩, rfl, by decide, rfl, by decide, by decide⟩

/-- The last two clauses: with 2 banks the write of 1 leaves its bank in the image, and the write of 2 does not. -/
theorem witness_NextReadSeesTheBankSwitch_banks :
    computeRomBank (testCfg 1 2 []) { RegBank.empty with romBankNumber := 1 } = some 1 ∧
    (nextOf (step (switchState (testCfg 1 2 []) 0x2000 0x7FFF 0x01))).map (·.currentRomBank) = some 1 ∧
    (nextOf (step (switchState (testCfg 1 2 []) 0x2000 0x7FFF 0x02))).map (·.currentRomBank) = some 2 :=
  by decide

theorem witness_RamEnableGateAndPseudoTransactions :
    ∃ s : State, s.Ready ∧ famOf s.cfg = .mbc3 ∧ s.bus = pseudoLatch clkB clkA :=
  ⟨{ testState 3 with bus := pseudoLatch clkB clkA }, ⟨by decide, rfl⟩, by decide, rfl⟩

/-- A block of each of the four families, with each of the three hand-overs. -/
theorem witness_RamEnableGate_writes :
    ∀ code ∈ [(1 : FamCode), 2, 3, 4], ∀ b ∈ [[.write 0x0000 0x1A clkA], pseudoRamon clkA, pseudoRamoff clkA],
    famOf { testState code with bus := b }.cfg ∈ [Fam.mbc1, .mbc2, .mbc3, .mbc5] :=
  by decide

end Sys2Proof.Tests
end

section
/-! PROOF. The statements of 20_memory.md: while the block runs, every transaction at every address has a step
(R61). -/

namespace Sys2Proof.Machine

/-! ## The form of a transaction's word -/

/-- A read's word decodes to a read form, at the read's own address (30_encoding.md R92, R96). -/
theorem decode_txnWord_read (cfg : Cfg) (a : Addr) :
    instrIsWrite (decode (txnWord cfg (.read a))) = false ∧ instrAddr (decode (txnWord cfg (.read a))) = a := by
  rw [txnWord, decode_read, decodeRead_ranges]
  split_ifs <;> exact ⟨rfl, rfl⟩

/-- A write's word decodes to a write form, whatever the family (30_encoding.md R92, R96). -/
theorem decode_txnWord_write (cfg : Cfg) (a : Addr) (v : Byte) (c : ClockSample) :
    instrIsWrite (decode (txnWord cfg (.write a v c))) = true := by
  rw [txnWord, decode_write, decodeWrite]
  cases famOfCode cfg.famCode with
  | noMbc => rfl
  | mbc1 => rw [decodeMbc1_ranges]; split_ifs <;> rfl
  | mbc2 => rw [decodeMbc2_ranges]; split_ifs <;> rfl
  | mbc3 => rw [decodeMbc3_ranges]; split_ifs <;> rfl
  | mbc5 => rw [decodeMbc5_ranges]; split_ifs <;> rfl
  | unsupported => dsimp only; split_ifs <;> rfl

/-! ## The outcome of a read and of a write -/

/-- A read that answers a byte and leaves the stop, or one that answers nothing and stops past the ROM image:
what a read at `a` can make of the state `s`. -/
def ReadOutcome (a : Addr) (s t : State) : Prop :=
  (t.stop = s.stop ∧ t.dout.isSome = true) ∨
  (t.dout = s.dout ∧ ∃ b : Nat, s.cfg.romBankCount ≤ b ∧ t.stop = .faulted (.romBankOutOfRange b a))

theorem readOutcome_answer (v : Byte) (a : Addr) (s : State) : ReadOutcome a s (answer v s) :=
  .inl ⟨rfl, rfl⟩

theorem readOutcome_romRead (b : Nat) (o : RomOff) (a : Addr) (s : State) : ReadOutcome a s (romRead b o a s) := by
  rcases romRead_cases b o a s with ⟨-, hstop, hdout⟩ | ⟨hb, hstop, hdout⟩
  · exact .inl ⟨hstop, by rw [hdout]; rfl⟩
  · exact .inr ⟨hdout, b, hb, hstop⟩

theorem readOutcome_rtcRead (i : Byte) (a : Addr) (s : State) : ReadOutcome a s (rtcRead i s) := by
  rcases rtcRead_cases i s with ⟨v, -, h⟩ | ⟨-, h⟩ <;> rw [h] <;> exact .inl ⟨rfl, rfl⟩

/-- Every read form answers, or stops at its own address. -/
theorem readOutcome_effect {i : Instr} (h : instrIsWrite i = false) (s : State) :
    ReadOutcome (instrAddr i) s (effect i s) := by
  cases i <;> simp only [instrIsWrite, reduceCtorEq] at h
  case rdRom0 fam a =>
    simp only [effect]
    split <;> exact readOutcome_romRead ..
  case rdRomx fam a => exact readOutcome_romRead ..
  case rdOpenLow fam a => exact readOutcome_answer ..
  case rdXram fam a =>
    simp only [effect]
    split
    · exact readOutcome_rtcRead ..
    · exact readOutcome_answer ..
  case rdOpenHigh fam a => exact readOutcome_answer ..

/-- No write form puts a byte on `DOUT` (45_write_dispatch.md R214). -/
theorem effect_write_dout {i : Instr} (h : instrIsWrite i = true) (s : State) : (effect i s).dout = s.dout := by
  cases i <;> simp only [instrIsWrite, reduceCtorEq] at h <;> simp only [effect, id] <;> (repeat' split) <;> simp

/-- A write form leaves the stop, unless it is one of an unsupported family, which stops as FATAL
(60_exceptions.md R251). -/
theorem effect_write_stop {i : Instr} (h : instrIsWrite i = true) (s : State) :
    (effect i s).stop = s.stop ∨ ((effect i s).stop = .fatal ∧ formFamily i = some .unsupported) := by
  cases i <;> simp only [instrIsWrite, reduceCtorEq] at h
  case wrFatal5 a v => exact .inr ⟨rfl, rfl⟩
  case wrFatal67 fam a v => exact .inr ⟨rfl, rfl⟩
  all_goals
    left
    simp only [effect, id] <;> (repeat' split) <;> simp

end Sys2Proof.Machine

namespace Sys2Proof.Proofs

open Sys2Proof.Machine

/-- Settles O8: in a ready state the step is the effect of the decoded form, which is a read form at the address
read, or a write form; what either can do to the outputs and the stop is said above. -/
theorem everyBusAddressIsDefined : Obligations.EveryBusAddressIsDefined := by
  intro s a rest hs
  constructor
  · intro hb
    obtain ⟨hread, haddr⟩ := decode_txnWord_read s.cfg a
    have hout := readOutcome_effect hread (clearOutputs { s with bus := rest, clk := clkFor (.read a) s.clk })
    rw [haddr] at hout
    refine ⟨_, step_ready hb hs, by simp, ?_⟩
    simpa [ReadOutcome, hs.running] using hout
  · intro v c hb
    have hwrite := decode_txnWord_write s.cfg a v c
    refine ⟨_, step_ready hb hs, by simp, by simp [effect_write_dout hwrite], ?_⟩
    rcases effect_write_stop hwrite _ with hstop | ⟨hstop, hfam⟩
    · exact .inl (hstop.trans hs.running)
    · exact .inr ⟨hstop, formFamily_decode s.cfg _ _ hfam⟩

end Sys2Proof.Proofs
end

section
/-! PROOF. The statements of 30_encoding.md: the opcode table has one row for each word (R95), and the decode map
by ranges (R96). -/

namespace Sys2Proof

/-! ## A row matches a word field by field -/

theorem txn28_and (f fm : FamCode) (w wm : BitVec 1) (a am : Addr) (v vm : Byte) :
    txn28 f w a v &&& txn28 fm wm am vm = txn28 (f &&& fm) (w &&& wm) (a &&& am) (v &&& vm) :=
  BitVec.and_append.trans (by rw [BitVec.and_append, BitVec.and_append]; rfl)

/-- The address bits from bit `k` up say which block of `2^k` addresses holds the address. -/
theorem and_highBits (a : Addr) (k : Nat) :
    a &&& (BitVec.allOnes 16 <<< k) = BitVec.ofNat 16 (a.toNat / 2 ^ k * 2 ^ k) := by
  rw [← BitVec.shiftLeft_ushiftRight]
  apply BitVec.eq_of_toNat_eq
  simp [Nat.shiftRight_eq_div_pow, Nat.shiftLeft_eq]

/-! ## The decoder's row matches -/

/-- The form's row of the table is there, matches the word `t` and has the form's mnemonic. -/
def RowOfFormMatches (i : Instr) (t : Txn28) : Prop :=
  ∃ r : OpcodeRow, opcodeTable[instrRow i]? = some r ∧ rowMatches r t = true ∧ r.mnemonic = instrMnemonic i

section
variable {i : Instr} {f fv : FamCode} {w : BitVec 1} {a : Addr} {v : Byte} (fm : FamCode)

/-- A row tests no bit of the value: it matches a word when its family, direction and address tests hold. -/
theorem RowOfFormMatches.of_fields (am av : Addr) (hf : f &&& fm = fv) (ha : a &&& am = av)
    (hrow : opcodeTable[instrRow i]? = some ⟨instrMnemonic i, txn28 fv w av 0, txn28 fm 1 am 0⟩) :
    RowOfFormMatches i (txn28 f w a v) := by
  refine ⟨_, hrow, ?_, rfl⟩
  have hw : w &&& 1 = w := BitVec.and_allOnes
  have hv : v &&& 0 = 0 := BitVec.and_zero
  rw [rowMatches, beq_iff_eq, txn28_and, hf, hw, ha, hv]

/-- A row for one block of `2^k` addresses matches the words of that block. -/
theorem RowOfFormMatches.of_block (k q : Nat) (hf : f &&& fm = fv)
    (hrow : opcodeTable[instrRow i]? = some
      ⟨instrMnemonic i, txn28 fv w (BitVec.ofNat 16 (q * 2 ^ k)) 0, txn28 fm 1 (BitVec.allOnes 16 <<< k) 0⟩)
    (hq : a.toNat / 2 ^ k = q) : RowOfFormMatches i (txn28 f w a v) :=
  .of_fields fm _ _ hf (by rw [and_highBits, hq]) hrow

end

theorem rowOfFormMatches_decodeRead (f : FamCode) (a : Addr) (v : Byte) :
    RowOfFormMatches (decodeRead f a) (txn28 f 0 a v) := by
  have := a.isLt
  rw [decodeRead_ranges]
  split_ifs
  · exact .of_block 0 14 0 BitVec.and_zero rfl (by omega)
  · exact .of_block 0 14 1 BitVec.and_zero rfl (by omega)
  · exact .of_block 0 13 4 BitVec.and_zero rfl (by omega)
  · exact .of_block 0 13 5 BitVec.and_zero rfl (by omega)
  · exact .of_block 0 14 3 BitVec.and_zero rfl (by omega)

theorem rowOfFormMatches_decodeMbc1 (a : Addr) (v : Byte) : RowOfFormMatches (decodeMbc1 a v) (txn28 1 1 a v) := by
  have := a.isLt
  rw [decodeMbc1_ranges]
  split_ifs
  · exact .of_block 7 13 0 rfl rfl (by omega)
  · exact .of_block 7 13 1 rfl rfl (by omega)
  · exact .of_block 7 13 2 rfl rfl (by omega)
  · exact .of_block 7 13 3 rfl rfl (by omega)
  · exact .of_block 7 15 1 rfl rfl (by omega)

/-- The two rows below 0x4000 test `A[15:14]` and `A[8]`. -/
theorem and_mbc2Mask {a : Addr} (ha : a.toNat < 0x4000) :
    a &&& 0xC100 = if a.toNat / 0x100 % 2 = 1 then 0x0100 else 0 := by
  have hsplit : (0xC100 : Addr) = BitVec.allOnes 16 <<< 14 ||| BitVec.twoPow 16 8 := by decide
  have hblock : a &&& BitVec.allOnes 16 <<< 14 = 0 := by
    rw [and_highBits, Nat.div_eq_of_lt (show a.toNat < 2 ^ 14 from ha)]
    rfl
  rw [hsplit, BitVec.and_or_distrib_left, hblock, BitVec.and_twoPow, bit8]
  simp only [decide_eq_true_eq]
  split_ifs <;> rfl

theorem rowOfFormMatches_decodeMbc2 (a : Addr) (v : Byte) : RowOfFormMatches (decodeMbc2 a v) (txn28 2 1 a v) := by
  have := a.isLt
  rw [decodeMbc2_ranges]
  split_ifs with hlow hbit
  · exact .of_fields 7 0xC100 _ rfl (by rw [and_mbc2Mask hlow, if_pos hbit]) rfl
  · exact .of_fields 7 0xC100 _ rfl (by rw [and_mbc2Mask hlow, if_neg hbit]) rfl
  · exact .of_block 7 14 1 rfl rfl (by omega)
  · exact .of_block 7 15 1 rfl rfl (by omega)

theorem rowOfFormMatches_decodeMbc3 (a : Addr) (v : Byte) : RowOfFormMatches (decodeMbc3 a v) (txn28 3 1 a v) := by
  have := a.isLt
  rw [decodeMbc3_ranges]
  split_ifs
  · exact .of_block 7 13 0 rfl rfl (by omega)
  · exact .of_block 7 13 1 rfl rfl (by omega)
  · exact .of_block 7 13 2 rfl rfl (by omega)
  · exact .of_block 7 13 3 rfl rfl (by omega)
  · exact .of_block 7 15 1 rfl rfl (by omega)

theorem rowOfFormMatches_decodeMbc5 (a : Addr) (v : Byte) : RowOfFormMatches (decodeMbc5 a v) (txn28 4 1 a v) := by
  have := a.isLt
  rw [decodeMbc5_ranges]
  split_ifs
  · exact .of_block 7 13 0 rfl rfl (by omega)
  · exact .of_block 7 12 2 rfl rfl (by omega)
  · exact .of_block 7 12 3 rfl rfl (by omega)
  · exact .of_block 7 13 2 rfl rfl (by omega)
  · exact .of_block 7 13 3 rfl rfl (by omega)
  · exact .of_block 7 15 1 rfl rfl (by omega)

/-- The family codes 0 to 7 in turn (30_encoding.md R91). -/
theorem rowOfFormMatches_decodeWrite (f : FamCode) (a : Addr) (v : Byte) :
    RowOfFormMatches (decodeWrite f a v) (txn28 f 1 a v) := by
  have hblock : a.toNat / 2 ^ 16 = 0 := Nat.div_eq_of_lt a.isLt
  obtain ⟨c, rfl⟩ : ∃ c : Fin 8, f = BitVec.ofFin c := ⟨f.toFin, rfl⟩
  fin_cases c
  · exact .of_block 7 16 0 rfl rfl hblock
  · exact rowOfFormMatches_decodeMbc1 a v
  · exact rowOfFormMatches_decodeMbc2 a v
  · exact rowOfFormMatches_decodeMbc3 a v
  · exact rowOfFormMatches_decodeMbc5 a v
  · exact .of_block 7 16 0 rfl rfl hblock
  · exact .of_block 6 16 0 rfl rfl hblock
  · exact .of_block 6 16 0 rfl rfl hblock

theorem rowOfFormMatches_decode (t : Txn28) : RowOfFormMatches (decode t) t := by
  have hdir : dirField t = 0 ∨ dirField t = 1 := BitVec.eq_zero_or_eq_one _
  rw [← txn28_fields t]
  rcases hdir with hw | hw
  · rw [hw, decode_read]
    exact rowOfFormMatches_decodeRead ..
  · rw [hw, decode_write]
    exact rowOfFormMatches_decodeWrite ..

/-! ## No other row matches -/

/-- Two rows that match the same word ask the same of every bit that both test. -/
theorem rows_agree_of_rowMatches {q r : OpcodeRow} {t : Txn28} (hq : rowMatches q t = true) (hr : rowMatches r t = true) :
    q.value &&& r.mask = r.value &&& q.mask := by
  simp only [rowMatches, beq_iff_eq] at hq hr
  rw [← hq, ← hr, BitVec.and_assoc, BitVec.and_assoc, BitVec.and_comm q.mask]

/-- Any two rows of the table differ in a bit that both test. -/
theorem opcodeTable_pairwise_conflict :
    opcodeTable.Pairwise fun q r => q.value &&& r.mask ≠ r.value &&& q.mask := by
  decide

/-- No row before a matching one matches, so a matching row's index is at most any other's. -/
theorem rowMatches_index_le {j k : Nat} {q r : OpcodeRow} {t : Txn28} (hq : opcodeTable[j]? = some q)
    (hr : opcodeTable[k]? = some r) (hqt : rowMatches q t = true) (hrt : rowMatches r t = true) : k ≤ j := by
  by_contra! hlt
  obtain ⟨hj, rfl⟩ := List.getElem?_eq_some_iff.mp hq
  obtain ⟨hk, rfl⟩ := List.getElem?_eq_some_iff.mp hr
  exact List.pairwise_iff_getElem.mp opcodeTable_pairwise_conflict j k hj hk hlt (rows_agree_of_rowMatches hqt hrt)

end Sys2Proof

namespace Sys2Proof.Proofs

/-- Settles O3: the decoder's row matches by its block of addresses, family and direction; no second row does,
since any two rows conflict in a bit that both test. -/
theorem exactlyOneTableRowMatches : Obligations.ExactlyOneTableRowMatches := by
  refine ⟨fun t => ?_, by decide⟩
  obtain ⟨r, hr, hrt, hname⟩ := rowOfFormMatches_decode t
  refine ⟨r, hr, hrt, hname, fun k q hq hqt => ?_⟩
  exact le_antisymm (rowMatches_index_le hr hq hrt hqt) (rowMatches_index_le hq hr hqt hrt)

/-- Settles O4: a read word decodes by its address ranges, and a write word by those of the family that its code
names. -/
theorem decodeFollowsTheMap : Obligations.DecodeFollowsTheMap := by
  intro fam a v
  simp only [decode_read, decode_write]
  exact ⟨decodeRead_ranges fam a, rfl, decodeMbc1_ranges a v, decodeMbc2_ranges a v, decodeMbc3_ranges a v,
    decodeMbc5_ranges a v, rfl, rfl, rfl⟩

end Sys2Proof.Proofs
end

section
/-! PROOF. The statements of 40_read_path.md: what a read leaves as it was (R118). -/

namespace Sys2Proof.Machine

/-! ## A read is one of three shared reads -/

/-- The effect of a read form: the open bus answers, or an RTC entry, or, for the two ROM forms only, the image
(40_read_path.md R111 to R117). -/
theorem effect_read_cases {i : Instr} (h : instrIsWrite i = false) (s : State) :
    effect i s = answer openBus s ∨
    effect i s = rtcRead s.reg.rtcRegisterNumber s ∨
    ((∃ fam a, i = .rdRom0 fam a ∨ i = .rdRomx fam a) ∧
      ∃ b, effect i s = romRead b (romOffset (instrAddr i)) (instrAddr i) s) := by
  cases i <;> simp only [instrIsWrite, reduceCtorEq] at h
  case rdRom0 fam a =>
    refine .inr (.inr ⟨⟨fam, a, .inl rfl⟩, ?_⟩)
    simp only [effect]
    split <;> exact ⟨_, rfl⟩
  case rdRomx fam a => exact .inr (.inr ⟨⟨fam, a, .inr rfl⟩, _, rfl⟩)
  case rdOpenLow fam a => exact .inl rfl
  case rdXram fam a =>
    simp only [effect]
    split
    · exact .inr (.inl rfl)
    · exact .inl rfl
  case rdOpenHigh fam a => exact .inl rfl

/-- No read form writes a register, a bank index or the RTC file (40_read_path.md R118). -/
theorem effect_read_sameRegisters {i : Instr} (h : instrIsWrite i = false) (s : State) :
    s.SameRegisters (effect i s) := by
  rcases effect_read_cases h s with heff | heff | ⟨-, b, heff⟩ <;> rw [heff] <;> simp [State.SameRegisters]

/-- Only the two ROM forms touch what is presented to the image (20_memory.md R66). -/
theorem effect_read_romPort {i : Instr} (h : instrIsWrite i = false) (s : State) :
    (effect i s).romPort = s.romPort ∨ ∃ fam a, i = .rdRom0 fam a ∨ i = .rdRomx fam a := by
  rcases effect_read_cases h s with heff | heff | ⟨hrom, -⟩
  · exact .inl (by rw [heff, answer_romPort])
  · exact .inl (by rw [heff, rtcRead_romPort])
  · exact .inr hrom

end Sys2Proof.Machine

namespace Sys2Proof.Proofs

open Sys2Proof.Machine

/-- Settles O19: the next state is the effect of a read form on the state with its outputs cleared; what that effect
does to the registers, the stop and the port is said above. -/
theorem readsChangeNoState : Obligations.ReadsChangeNoState := by
  intro i s t hread hnext
  obtain ⟨-, -, rfl⟩ := exec_next.1 hnext
  refine ⟨effect_read_sameRegisters hread (clearOutputs s), by simp, by simp, by simp, ?_, fun hport => ?_⟩
  · rcases readOutcome_effect hread (clearOutputs s) with ⟨hstop, -⟩ | ⟨hdout, b, -, hstop⟩
    · exact .inl hstop
    · exact .inr ⟨hdout, b, _, hstop⟩
  · rcases effect_read_romPort hread (clearOutputs s) with hkept | hrom
    · simp [hkept] at hport
    · exact hrom

end Sys2Proof.Proofs
end

section
/-! PROOF. The statements of 41_write_mbc1.md: what each MBC1 register write stores, and which bank index it
recomputes (R131 to R134). -/

namespace Sys2Proof

/-- An MBC1 write's word, by its address ranges (30_encoding.md R96). -/
theorem decode_mbc1_write (a : Addr) (v : Byte) : decode (txn28 1 1 a v) =
    (if a.toNat < 0x2000 then .mbc1Ramen a v
     else if a.toNat < 0x4000 then .mbc1Romb a v
     else if a.toNat < 0x6000 then .mbc1Ramb a v
     else if a.toNat < 0x8000 then .mbc1Mode a v
     else .wrIgnoreMbc1 a v) :=
  (decode_write 1 a v).trans (decodeMbc1_ranges a v)

end Sys2Proof

namespace Sys2Proof.Machine

/-- While the block runs, a form of the configured family gives its effect. -/
theorem exec_of_family {i : Instr} {f : Fam} {s : State} (hs : s.Ready) (hf : famOf s.cfg = f)
    (hi : formFamily i = some f) : exec i s = .next (effect i (clearOutputs s)) := by
  refine exec_ready hs fun q hq => ?_
  rw [hi] at hq
  exact hf.trans (Option.some.inj hq)

/-- Under MBC1 the ROM recompute writes the bank of R222, and nothing else. -/
theorem recomputeRom_mbc1 {s : State} (hf : famOf s.cfg = .mbc1) :
    recomputeRom s = { s with currentRomBank := computeRomBankMbc1 s.reg } := by
  simp [recomputeRom_eq, computeRomBank, hf]

/-- Under MBC1 the RAM recompute writes the bank of R231, and nothing else. -/
theorem recomputeRam_mbc1 {s : State} (hf : famOf s.cfg = .mbc1) :
    recomputeRam s = { s with currentRamBank := computeRamBankMbc1 s.cfg s.reg } := by
  simp [recomputeRam, computeRamBank, hf]

end Sys2Proof.Machine

namespace Sys2Proof.Proofs

open Sys2Proof.Machine

/-- Settles O23: the effect is the store, then the RAM recompute under MBC1. -/
theorem mbc1RamEnableWrite : Obligations.Mbc1RamEnableWrite := by
  intro a v s hs hf
  constructor
  · intro hhi
    rw [decode_mbc1_write, if_pos (by omega)]
  · rw [exec_of_family hs hf rfl]
    simp only [effect, recomputeRam_mbc1, hf, setReg_cfg, clearOutputs_cfg]
    rfl

/-- Settles O24: the effect is the store, then the ROM recompute under MBC1, with its zero-bank remap. -/
theorem mbc1RomBankWrite : Obligations.Mbc1RomBankWrite := by
  intro a v s hs hf
  constructor
  · intro hlo hhi
    rw [decode_mbc1_write, if_neg (by omega), if_pos (by omega)]
  · rw [exec_of_family hs hf rfl]
    simp only [effect, recomputeRom_mbc1, hf, setReg_cfg, clearOutputs_cfg]
    rfl

/-- Settles O25: the effect is the store, then both recomputes under MBC1, each from the new register. -/
theorem mbc1RamBankWrite : Obligations.Mbc1RamBankWrite := by
  intro a v s hs hf
  constructor
  · intro hlo hhi
    rw [decode_mbc1_write, if_neg (by omega), if_neg (by omega), if_pos (by omega)]
  · rw [exec_of_family hs hf rfl]
    simp only [effect, recomputeRom_mbc1, recomputeRam_mbc1, hf, setReg_cfg, clearOutputs_cfg]
    rfl

/-- Settles O26: the store leaves RAM_ENABLE, so the two cases of the effect are those of its low nibble; the RAM
recompute runs in the enabled case only. -/
theorem mbc1ModeWrite : Obligations.Mbc1ModeWrite := by
  intro a v s hs hf
  constructor
  · intro hlo hhi
    rw [decode_mbc1_write, if_neg (by omega), if_neg (by omega), if_neg (by omega), if_pos (by omega)]
  · rw [exec_of_family hs hf rfl]
    by_cases hram : s.reg.ramEnable.toNat % 16 = 0x0A
    · have hon : isRamEnabled s.reg = true := (isRamEnabled_iff _).2 hram
      simp only [effect, clearOutputs_reg, hon, if_true, hram, recomputeRam_mbc1, hf, setReg_cfg, clearOutputs_cfg]
      rfl
    · have hoff : ¬ isRamEnabled s.reg = true := mt (isRamEnabled_iff _).1 hram
      simp only [effect, clearOutputs_reg, hoff, hram, if_false]
      rfl

end Sys2Proof.Proofs
end

section
/-! PROOF. The statements of 42_write_mbc2.md: what the MBC2 bank write stores, and the bank index it recomputes
(R151). -/

namespace Sys2Proof

/-- An MBC2 write's word, by its address ranges and, below 0x4000, by `A[8]` (30_encoding.md R96). -/
theorem decode_mbc2_write (a : Addr) (v : Byte) : decode (txn28 2 1 a v) =
    (if a.toNat < 0x4000 then (if a.toNat / 0x100 % 2 = 1 then .mbc2Romb a v else .mbc2Ramen a v)
     else if a.toNat < 0x8000 then .wrIgnoreMbc2Low a v
     else .wrIgnoreMbc2High a v) :=
  (decode_write 2 a v).trans (decodeMbc2_ranges a v)

end Sys2Proof

namespace Sys2Proof.Machine

/-- Under MBC2 the ROM recompute writes ROM_BANK_NUMBER itself (46_bank_index.md R223), and nothing else. -/
theorem recomputeRom_mbc2 {s : State} (hf : famOf s.cfg = .mbc2) :
    recomputeRom s = { s with currentRomBank := s.reg.romBankNumber.toNat } := by
  simp [recomputeRom_eq, computeRomBank, computeRomBankDirect, hf]

end Sys2Proof.Machine

namespace Sys2Proof.Proofs

open Sys2Proof.Machine

/-- Settles O27: the effect is the store, then the ROM recompute under MBC2, which takes the stored low nibble as it
is. -/
theorem mbc2RomBankWrite : Obligations.Mbc2RomBankWrite := by
  intro a v s hs hf
  constructor
  · intro hhi hbit
    rw [decode_mbc2_write, if_pos (by omega), if_pos hbit]
  · rw [exec_of_family hs hf rfl, ← toNat_low4]
    simp only [effect, recomputeRom_mbc2, hf, setReg_cfg, clearOutputs_cfg]
    rfl

end Sys2Proof.Proofs
end

section
/-! PROOF. The statements of 43_write_mbc3_rtc.md on the MBC3 register writes: the ROM bank, the selection, and the
latch (R162, R163, R170). -/

namespace Sys2Proof

/-- An MBC3 write's word, by its address ranges (30_encoding.md R96). -/
theorem decode_mbc3_write (a : Addr) (v : Byte) : decode (txn28 3 1 a v) =
    (if a.toNat < 0x2000 then .mbc3Ramen a v
     else if a.toNat < 0x4000 then .mbc3Romb a v
     else if a.toNat < 0x6000 then .mbc3Sel a v
     else if a.toNat < 0x8000 then .mbc3Latch a v
     else .wrIgnoreMbc3 a v) :=
  (decode_write 3 a v).trans (decodeMbc3_ranges a v)

end Sys2Proof

namespace Sys2Proof.Machine

/-- Under MBC3 the ROM recompute writes ROM_BANK_NUMBER itself (46_bank_index.md R223, R224), and nothing else. -/
theorem recomputeRom_mbc3 {s : State} (hf : famOf s.cfg = .mbc3) :
    recomputeRom s = { s with currentRomBank := s.reg.romBankNumber.toNat } := by
  simp [recomputeRom_eq, computeRomBank, computeRomBankDirect, hf]

/-- Under MBC3 the RAM recompute writes the bank of R233, and nothing else. -/
theorem recomputeRam_mbc3 {s : State} (hf : famOf s.cfg = .mbc3) :
    recomputeRam s = { s with currentRamBank := computeRamBankMbc3 s.reg } := by
  simp [recomputeRam, computeRamBank, hf]

/-- A clock sample as five latched entries, its day as remainders of division (43_write_mbc3_rtc.md R177). -/
theorem rtcOfSample_eq (c : ClockSample) : rtcOfSample c =
    ⟨.latched c.sec, .latched c.min, .latched c.hour,
      .latched (BitVec.ofNat 8 (c.day % 256)), .latched (BitVec.ofNat 8 (c.day / 256 % 2))⟩ := by
  have hlow : c.day &&& 0xFF = c.day % 256 := Nat.and_two_pow_sub_one_eq_mod _ 8
  have hhigh : (c.day >>> 8) &&& 0x01 = c.day / 256 % 2 := by
    rw [Nat.shiftRight_eq_div_pow]; exact Nat.and_two_pow_sub_one_eq_mod _ 1
  rw [rtcOfSample, hlow, hhigh]

end Sys2Proof.Machine

namespace Sys2Proof.Proofs

open Sys2Proof.Machine

/-- Settles O30: the effect is the store, then the ROM recompute under MBC3, which takes the stored low five bits as
they are. -/
theorem mbc3RomBankWrite : Obligations.Mbc3RomBankWrite := by
  intro a v s hs hf
  constructor
  · intro hlo hhi
    rw [decode_mbc3_write, if_neg (by omega), if_pos (by omega)]
  · rw [exec_of_family hs hf rfl, ← toNat_low5]
    simp only [effect, recomputeRom_mbc3, hf, setReg_cfg, clearOutputs_cfg]
    rfl

/-- Settles O31: the three ranges of the value are the three cases of the effect; the RAM recompute runs in the first
only, after the mode is set to RAM, so that it takes the new register. -/
theorem mbc3SelectionWrite : Obligations.Mbc3SelectionWrite := by
  intro a v s hs hf
  refine ⟨fun hlo hhi => ?_, ?_⟩
  · rw [decode_mbc3_write, if_neg (by omega), if_neg (by omega), if_pos (by omega)]
  rw [exec_of_family hs hf rfl]
  refine ⟨fun hram => ?_, fun hlo hhi => ?_, fun hnone => ?_⟩
  · have hsel : selectsRam v = true := (selectsRam_iff v).2 hram
    simp only [effect, hsel, if_true, recomputeRam_mbc3, hf, setReg_cfg, clearOutputs_cfg]
    rfl
  · have hnotRam : ¬ selectsRam v = true := mt (selectsRam_iff v).1 (by omega)
    have hsel : selectsRtc v = true := (selectsRtc_iff v).2 ⟨hlo, hhi⟩
    simp only [effect, hnotRam, hsel, if_true]
    rfl
  · have hnotRam : ¬ selectsRam v = true := mt (selectsRam_iff v).1 (by omega)
    have hnotRtc : ¬ selectsRtc v = true := mt (selectsRtc_iff v).1 (by omega)
    simp only [effect, hnotRam, hnotRtc]
    rfl

/-- Settles O32: the two cases of the effect are those of the edge; the trigger is stored in both, the sample in the
first only. -/
theorem mbc3LatchWrite : Obligations.Mbc3LatchWrite := by
  intro a v s hs hf
  refine ⟨fun hlo hhi => ?_, ?_⟩
  · rw [decode_mbc3_write, if_neg (by omega), if_neg (by omega), if_neg (by omega), if_pos (by omega)]
  rw [exec_of_family hs hf rfl, ← rtcOfSample_eq]
  refine ⟨fun htrigger hv => ?_, fun hno => ?_⟩
  · have hedge : latchEdge s.reg v = true := (latchEdge_iff s.reg v).2 ⟨htrigger, hv⟩
    simp only [effect, clearOutputs_reg, hedge, if_true]
    rw [hv]
    rfl
  · have hnoEdge : ¬ latchEdge s.reg v = true := by
      rw [latchEdge_iff, not_and_or]; exact hno
    simp only [effect, clearOutputs_reg, hnoEdge]
    rfl

end Sys2Proof.Proofs
end

section
/-! PROOF. The statements of 44_write_mbc5.md on the MBC5 bank writes: the two halves of the ROM bank number, under
either formula, and the RAM bank (R192 to R194). -/

namespace Sys2Proof

/-- An MBC5 write's word, by its address ranges (30_encoding.md R96). -/
theorem decode_mbc5_write (a : Addr) (v : Byte) : decode (txn28 4 1 a v) =
    (if a.toNat < 0x2000 then .mbc5Ramen a v
     else if a.toNat < 0x3000 then .mbc5RombLo a v
     else if a.toNat < 0x4000 then .mbc5RombHi a v
     else if a.toNat < 0x6000 then .mbc5Ramb a v
     else if a.toNat < 0x8000 then .wrIgnoreMbc5Low a v
     else .wrIgnoreMbc5High a v) :=
  (decode_write 4 a v).trans (decodeMbc5_ranges a v)

end Sys2Proof

namespace Sys2Proof.Machine

/-- Under MBC5 CORRECTED the ROM recompute writes the nine-bit bank of R225, and nothing else. -/
theorem recomputeRom_mbc5_corrected {s : State} (hf : famOf s.cfg = .mbc5)
    (hc : s.cfg.mbc5RomFormula = .corrected) :
    recomputeRom s = { s with currentRomBank := computeRomBankMbc5 s.reg } := by
  simp [recomputeRom_eq, computeRomBank, hf, hc]

/-- Under MBC5 LITERAL the ROM recompute writes the open function's value at ROM_BANK_NUMBER (46_bank_index.md R226),
and nothing else. -/
theorem recomputeRom_mbc5_literal {s : State} {f : Vector Nat 256} (hf : famOf s.cfg = .mbc5)
    (hl : s.cfg.mbc5RomFormula = .literal) (hfn : s.cfg.mbc5LiteralFn = some f) :
    recomputeRom s =
      { s with currentRomBank := f[s.reg.romBankNumber.toNat]'(s.reg.romBankNumber.isLt) } := by
  simp only [recomputeRom_eq, computeRomBank, hf, hl, computeRomBankLiteral, hfn]
  rfl

/-- Under MBC5 the RAM recompute writes RAM_BANK_NUMBER itself (46_bank_index.md R234), and nothing else. -/
theorem recomputeRam_mbc5 {s : State} (hf : famOf s.cfg = .mbc5) :
    recomputeRam s = { s with currentRamBank := s.reg.ramBankNumber.toNat } := by
  simp [recomputeRam, computeRamBank, hf]

end Sys2Proof.Machine

namespace Sys2Proof.Proofs

open Sys2Proof.Machine

/-- Settles O36: the effect is the store, then the ROM recompute under MBC5, whose two formulas are the two cases. -/
theorem mbc5RomLowWrite : Obligations.Mbc5RomLowWrite := by
  intro a v s hs hf
  refine ⟨fun hlo hhi => ?_, ?_⟩
  · rw [decode_mbc5_write, if_neg (by omega), if_pos (by omega)]
  rw [exec_of_family hs hf rfl]
  refine ⟨fun hc => ?_, fun f hl hfn => ?_⟩
  · simp only [effect, recomputeRom_mbc5_corrected, hf, hc, setReg_cfg, clearOutputs_cfg]
    rfl
  · simp only [effect, recomputeRom_mbc5_literal (f := f), hf, hl, hfn, setReg_cfg, clearOutputs_cfg]
    rfl

/-- Settles O37: the effect is the store, then the ROM recompute under MBC5; the stored bit is the ninth bit of the
bank under CORRECTED, and the open function does not read it under LITERAL. -/
theorem mbc5RomHighWrite : Obligations.Mbc5RomHighWrite := by
  intro a v s hs hf
  refine ⟨fun hlo hhi => ?_, ?_⟩
  · rw [decode_mbc5_write, if_neg (by omega), if_neg (by omega), if_pos (by omega)]
  rw [exec_of_family hs hf rfl]
  refine ⟨fun hc => ?_, fun f hl hfn => ?_⟩
  · rw [← toNat_low1, ← shift8_or s.reg.romBankNumber.isLt]
    simp only [effect, recomputeRom_mbc5_corrected, hf, hc, setReg_cfg, clearOutputs_cfg]
    rfl
  · simp only [effect, recomputeRom_mbc5_literal (f := f), hf, hl, hfn, setReg_cfg, clearOutputs_cfg]
    rfl

/-- Settles O38: the effect is the store, then the RAM recompute under MBC5, which takes the stored byte as it is. -/
theorem mbc5RamBankWrite : Obligations.Mbc5RamBankWrite := by
  intro a v s hs hf
  constructor
  · intro hlo hhi
    rw [decode_mbc5_write, if_neg (by omega), if_neg (by omega), if_neg (by omega), if_pos (by omega)]
  · rw [exec_of_family hs hf rfl]
    simp only [effect, recomputeRam_mbc5, hf, setReg_cfg, clearOutputs_cfg]
    rfl

end Sys2Proof.Proofs
end

section
/-! PROOF. The statements of 45_write_dispatch.md: the writes a family ignores, and the fatal writes of an unsupported
family (R211, R212, R215). -/

namespace Sys2Proof

/-! ## Which words decode to ignored and fatal writes -/

/-- A write under any code of NONE is ignored, whatever the address (R211). -/
theorem decodeWrite_noMbc {f : FamCode} (hf : famOfCode f = .noMbc) (a : Addr) (v : Byte) :
    decodeWrite f a v = .wrIgnoreNoMbc a v := by
  rw [decodeWrite, hf]

/-- Family codes 6 and 7 share one row, which keeps the code (R215). -/
theorem decodeWrite_fatal67 {f : FamCode} (hf : f = 6 ∨ f = 7) (a : Addr) (v : Byte) :
    decodeWrite f a v = .wrFatal67 f a v := by
  rcases hf with rfl | rfl <;> rfl

section High
variable {a : Addr} (v : Byte) (h : 0x8000 ≤ a.toNat)
include h

theorem decode_mbc1_write_high : decode (txn28 1 1 a v) = .wrIgnoreMbc1 a v := by
  simp (disch := omega) only [decode_mbc1_write, if_neg]

theorem decode_mbc2_write_high : decode (txn28 2 1 a v) = .wrIgnoreMbc2High a v := by
  simp (disch := omega) only [decode_mbc2_write, if_neg]

theorem decode_mbc3_write_high : decode (txn28 3 1 a v) = .wrIgnoreMbc3 a v := by
  simp (disch := omega) only [decode_mbc3_write, if_neg]

theorem decode_mbc5_write_high : decode (txn28 4 1 a v) = .wrIgnoreMbc5High a v := by
  simp (disch := omega) only [decode_mbc5_write, if_neg]
end High

end Sys2Proof

namespace Sys2Proof.Machine

/-- While the block runs, a form of the configured family with no effect gives the state as it was, outputs clear. -/
theorem exec_of_effect_id {i : Instr} {f : Fam} {s : State} (hs : s.Ready) (hi : formFamily i = some f)
    (hid : effect i = id) (hf : famOf s.cfg = f) : exec i s = .next (clearOutputs s) := by
  rw [exec_of_family hs hf hi, hid, id]

end Sys2Proof.Machine

namespace Sys2Proof.Proofs

open Sys2Proof.Machine

/-- Settles O39: each of the seven rows is of its family and has no effect; its addresses are the last cases of the
family's decode map. -/
theorem ignoredWritesChangeNothing : Obligations.IgnoredWritesChangeNothing := by
  intro a v s hs
  refine ⟨exec_of_effect_id hs rfl rfl, exec_of_effect_id hs rfl rfl,
    fun hf => ⟨exec_of_effect_id hs rfl rfl hf, exec_of_effect_id hs rfl rfl hf⟩, exec_of_effect_id hs rfl rfl,
    fun hf => ⟨exec_of_effect_id hs rfl rfl hf, exec_of_effect_id hs rfl rfl hf⟩,
    (decode_write 0 a v).trans (decodeWrite_noMbc rfl a v), fun hhigh => ?_, fun hlo hhi => ?_, fun hlo hhi => ?_⟩
  · exact ⟨decode_mbc1_write_high v hhigh, decode_mbc2_write_high v hhigh, decode_mbc3_write_high v hhigh,
      decode_mbc5_write_high v hhigh⟩
  · rw [decode_mbc2_write, if_neg (by omega), if_pos (by omega)]
  · rw [decode_mbc5_write, if_neg (by omega), if_neg (by omega), if_neg (by omega), if_neg (by omega),
      if_pos (by omega)]

/-- Settles O40: the step of the write in hand is the effect of its form, which under NONE is the ignored write. -/
theorem noMbcWriteIsANoOp : Obligations.NoMbcWriteIsANoOp := by
  intro s a v c rest hs hf hb
  rw [step_ready hb hs, txnWord, decode_write, decodeWrite_noMbc hf]
  rfl

/-- Settles O41: both rows are of the unsupported family, and the effect of each is the fatal stop. -/
theorem unsupportedWriteIsFatal : Obligations.UnsupportedWriteIsFatal := by
  intro fam a v s hs hf
  refine ⟨exec_of_family hs hf rfl, exec_of_family hs hf rfl, rfl, decode_write 5 a v, fun hfam => ?_⟩
  rw [decode_write, decodeWrite_fatal67 hfam]

end Sys2Proof.Proofs
end

section
/-! PROOF. The statements of 30_encoding.md on the two directions of the coding: a well-formed form is what its word
decodes to, and a word is the encoding of the form it decodes to (R90, R94, R96). -/

namespace Sys2Proof

theorem inRange_iff (lo hi : Nat) (a : Addr) : inRange lo hi a = true ↔ lo ≤ a.toNat ∧ a.toNat ≤ hi := by
  simp [inRange]

theorem decode_mbc2_write_low {a : Addr} (h : a.toNat < 0x4000) (v : Byte) : decode (txn28 2 1 a v) =
    if a.getLsbD 8 then .mbc2Romb a v else .mbc2Ramen a v := by
  simp only [decode_mbc2_write, if_pos h, bit8, decide_eq_true_eq]

/-! ## A word is the encoding of a well-formed form -/

/-- The form is well formed and the word is its encoding. -/
def EncodesTo (i : Instr) (t : Txn28) : Prop := i.wf = true ∧ encode i = t

theorem encodesTo_decodeRead (f : FamCode) (a : Addr) : EncodesTo (decodeRead f a) (txn28 f 0 a 0) := by
  have := a.isLt
  rw [decodeRead_ranges]
  split_ifs <;> exact ⟨(inRange_iff _ _ a).2 (by omega), rfl⟩

theorem encodesTo_decodeMbc1 (a : Addr) (v : Byte) : EncodesTo (decodeMbc1 a v) (txn28 1 1 a v) := by
  have := a.isLt
  rw [decodeMbc1_ranges]
  split_ifs <;> exact ⟨(inRange_iff _ _ a).2 (by omega), rfl⟩

theorem encodesTo_decodeMbc2 (a : Addr) (v : Byte) : EncodesTo (decodeMbc2 a v) (txn28 2 1 a v) := by
  have := a.isLt
  rw [decodeMbc2_ranges]
  split_ifs with hlow hbit
  · exact ⟨Bool.and_eq_true_iff.2 ⟨(inRange_iff _ _ a).2 (by omega), by rw [bit8, decide_eq_true hbit]⟩, rfl⟩
  · exact ⟨Bool.and_eq_true_iff.2 ⟨(inRange_iff _ _ a).2 (by omega), by rw [bit8, decide_eq_false hbit]; rfl⟩, rfl⟩
  · exact ⟨(inRange_iff _ _ a).2 (by omega), rfl⟩
  · exact ⟨(inRange_iff _ _ a).2 (by omega), rfl⟩

theorem encodesTo_decodeMbc3 (a : Addr) (v : Byte) : EncodesTo (decodeMbc3 a v) (txn28 3 1 a v) := by
  have := a.isLt
  rw [decodeMbc3_ranges]
  split_ifs <;> exact ⟨(inRange_iff _ _ a).2 (by omega), rfl⟩

theorem encodesTo_decodeMbc5 (a : Addr) (v : Byte) : EncodesTo (decodeMbc5 a v) (txn28 4 1 a v) := by
  have := a.isLt
  rw [decodeMbc5_ranges]
  split_ifs <;> exact ⟨(inRange_iff _ _ a).2 (by omega), rfl⟩

/-- The family codes 0 to 7 in turn (30_encoding.md R91). -/
theorem encodesTo_decodeWrite (f : FamCode) (a : Addr) (v : Byte) :
    EncodesTo (decodeWrite f a v) (txn28 f 1 a v) := by
  have hall : inRange 0x0000 0xFFFF a = true := (inRange_iff _ _ a).2 (by have := a.isLt; omega)
  obtain ⟨c, rfl⟩ : ∃ c : Fin 8, f = BitVec.ofFin c := ⟨f.toFin, rfl⟩
  fin_cases c
  · exact ⟨hall, rfl⟩
  · exact encodesTo_decodeMbc1 a v
  · exact encodesTo_decodeMbc2 a v
  · exact encodesTo_decodeMbc3 a v
  · exact encodesTo_decodeMbc5 a v
  · exact ⟨hall, rfl⟩
  · exact ⟨Bool.and_eq_true_iff.2 ⟨hall, rfl⟩, rfl⟩
  · exact ⟨Bool.and_eq_true_iff.2 ⟨hall, rfl⟩, rfl⟩

end Sys2Proof

namespace Sys2Proof.Proofs

/-- Settles O1: the address range of each form picks its own case of the read map, or of its family's write map. -/
theorem decodeInvertsEncode : Obligations.DecodeInvertsEncode := by
  intro i hwf
  cases i <;> simp only [Instr.wf, Bool.and_eq_true, inRange_iff] at hwf <;> rw [encode]
  case rdRom0 | rdRomx | rdOpenLow | rdXram | rdOpenHigh =>
    simp (disch := omega) only [decode_read, decodeRead_ranges, if_pos, if_neg]
  case wrIgnoreNoMbc a v => exact decode_write 0 a v
  case mbc1Ramen | mbc1Romb | mbc1Ramb | mbc1Mode | wrIgnoreMbc1 =>
    simp (disch := omega) only [decode_mbc1_write, if_pos, if_neg]
  case mbc2Romb a v =>
    obtain ⟨hrange, hbit⟩ := hwf
    rw [decode_mbc2_write_low (by omega), if_pos hbit]
  case mbc2Ramen a v =>
    obtain ⟨hrange, hbit⟩ := hwf
    rw [decode_mbc2_write_low (by omega), if_neg (by simpa using hbit)]
  case wrIgnoreMbc2Low | wrIgnoreMbc2High =>
    simp (disch := omega) only [decode_mbc2_write, if_pos, if_neg]
  case mbc3Ramen | mbc3Romb | mbc3Sel | mbc3Latch | wrIgnoreMbc3 =>
    simp (disch := omega) only [decode_mbc3_write, if_pos, if_neg]
  case mbc5Ramen | mbc5RombLo | mbc5RombHi | mbc5Ramb | wrIgnoreMbc5Low | wrIgnoreMbc5High =>
    simp (disch := omega) only [decode_mbc5_write, if_pos, if_neg]
  case wrFatal5 a v => exact decode_write 5 a v
  case wrFatal67 fam a v =>
    obtain ⟨-, hfam⟩ := hwf
    rw [decode_write, decodeWrite_fatal67 (by simpa using hfam)]

/-- Settles O2: a word is its four fields, and both halves of the decode map give a well-formed form that the word
with `V` = 0 on a read encodes. -/
theorem wordsDecodeToWellFormedForms : Obligations.WordsDecodeToWellFormedForms := by
  intro t
  have hdir : dirField t = 0 ∨ dirField t = 1 := BitVec.eq_zero_or_eq_one _
  have hword := txn28_fields t
  rcases hdir with hw | hw <;> rw [hw] at hword ⊢
  · obtain ⟨hwf, henc⟩ := encodesTo_decodeRead (famField t) (addrField t)
    rw [← decode_read (v := valueField t), hword] at hwf henc
    exact ⟨hwf, fun h => absurd h (by decide), fun _ hv => by rw [henc, ← hword, hv]; simp⟩
  · obtain ⟨hwf, henc⟩ := encodesTo_decodeWrite (famField t) (addrField t) (valueField t)
    rw [← decode_write, hword] at hwf henc
    exact ⟨hwf, fun _ => henc, fun h => absurd h (by decide)⟩

/-- Settles O5: each of the eleven numbers is decoded by evaluation. -/
theorem writtenOutWordsDecode : Obligations.WrittenOutWordsDecode := by
  unfold Obligations.WrittenOutWordsDecode
  decide

end Sys2Proof.Proofs
end

section
/-! PROOF. The statements of 00_scope.md, 30_encoding.md and 60_exceptions.md on the step: it runs the form of the
word in hand, a stopped block has none, and neither has one with a refused configuration (R10, R51, R90, R252). -/

namespace Sys2Proof.Machine

/-! ## The step takes the transaction in hand -/

theorem step_of_bus {s : State} {x : BusTxn} {rest : List BusTxn} (hb : s.bus = x :: rest) :
    step s = exec (decode (txnWord s.cfg x)) { s with bus := rest, clk := clkFor x s.clk } := by
  simp [step, fetch, hb]

theorem step_of_bus_nil {s : State} (hb : s.bus = []) : step s = .refused .noTransaction := by
  simp [step, fetch, hb]

/-- What a step can do: the block runs, and the next state is the effect of the form of the word in hand, which is a
form of the configured family. -/
theorem step_next_effect {s t : State} (h : step s = .next t) : s.Ready ∧
    ∃ (x : BusTxn) (rest : List BusTxn), s.bus = x :: rest ∧
      (∀ f, formFamily (decode (txnWord s.cfg x)) = some f → famOf s.cfg = f) ∧
      t = effect (decode (txnWord s.cfg x)) (clearOutputs { s with bus := rest, clk := clkFor x s.clk }) := by
  obtain ⟨x, rest, hb, hx⟩ := step_next.1 h
  obtain ⟨⟨hcfg, hrun⟩, hf, ht⟩ := exec_next.1 hx
  exact ⟨⟨hcfg, hrun⟩, x, rest, hb, hf, ht⟩

/-! ## A word handed over -/

/-- A word handed over to a block of its family decodes as itself, though a read is handed over with `V` = 0. -/
theorem decode_txnWord_txnOfWord (cfg : Cfg) (t : Txn28) (c : ClockSample) :
    decode (txnWord { cfg with famCode := famField t } (txnOfWord t c)) = decode t := by
  have hdir : dirField t = 0 ∨ dirField t = 1 := BitVec.eq_zero_or_eq_one _
  rcases hdir with hw | hw <;> simp [txnOfWord, hw, txnWord, decode]

/-- A word handed over brings the sample that stands at the clock input (log entry 22). -/
theorem clkFor_txnOfWord (t : Txn28) (c : ClockSample) : clkFor (txnOfWord t c) c = c := by
  rw [txnOfWord]; split <;> rfl

/-- The step after a word is handed over runs the form it decodes to. -/
theorem step_handOver (t : Txn28) (s : State) : step (handOver t s) =
    exec (decode t) { s with cfg := { s.cfg with famCode := famField t } } := by
  rw [step_of_bus (show (handOver t s).bus = txnOfWord t s.clk :: s.bus from rfl)]
  simp only [handOver, decode_txnWord_txnOfWord, clkFor_txnOfWord]

theorem decodeTableWord_of_lt {w : Nat} (h : w < 2 ^ 28) :
    decodeTableWord 32 w = some (decode (BitVec.ofNat 28 w)) := by
  rw [decodeTableWord, decodeNat, Nat.mod_eq_of_lt (by omega), if_pos h]

theorem withFetchWord_of_lt {w : Nat} (h : w < 2 ^ 28) (s : State) :
    s.withFetchWord 32 w = handOver (BitVec.ofNat 28 w) s := by
  rw [State.withFetchWord, Nat.mod_eq_of_lt (by omega), if_pos h]

/-! ## A stopped block -/

/-- A form that the configured family allows is its effect behind the guards of a transaction. -/
theorem exec_eq_transact {i : Instr} {s : State} (hf : ∀ f, formFamily i = some f → famOf s.cfg = f) :
    exec i s = transact s (effect i) := by
  rw [exec_eq]
  cases h : formFamily i with
  | none => rfl
  | some f => exact if_pos (hf f h)

/-! ## The checks of a configuration (10_state.md R51) -/

theorem cfgOk_iff (cfg : Cfg) : cfgOk cfg = true ↔
    1 ≤ cfg.romBankCount ∧
    (Memory.wf cfg.romImage = true ∧ Memory.below (cfg.romBankCount * romBankSize) cfg.romImage = true) ∧
    (cfg.ramGt8KB = true → cfg.hasRam = true) ∧
    (famOf cfg = .mbc5 → cfg.mbc5RomFormula = .literal → cfg.mbc5LiteralFn.isSome = true) := by
  simp [cfgOk, and_assoc, imp_iff_not_or, or_assoc]

theorem construct_next {cfg : Cfg} {s : State} :
    construct cfg = .next s ↔ cfgOk cfg = true ∧ s = State.ofConfig cfg := by
  unfold construct
  split <;> simp [*, eq_comm]

theorem construct_refused {cfg : Cfg} (h : cfgOk cfg ≠ true) : construct cfg = .refused .badConfiguration :=
  if_neg h

end Sys2Proof.Machine

namespace Sys2Proof.Proofs

open Sys2Proof.Machine

/-- Settles O6: the word of a read or a write, with the family of the configuration, is what the step decodes. -/
theorem stepRunsTheDecodedTransaction : Obligations.StepRunsTheDecodedTransaction :=
  fun _ _ _ _ _ => ⟨step_of_bus, step_of_bus⟩

/-- Settles O7: a number below 2^28 is handed over as its word, which the next step decodes as it stands. -/
theorem handedOverWordRunsNext : Obligations.HandedOverWordRunsNext := by
  intro s w hw
  refine ⟨decode (BitVec.ofNat 28 w), decodeTableWord_of_lt hw, ?_⟩
  rw [withFetchWord_of_lt hw, step_handOver]

/-- Settles O9: behind its family's guard every form is one transaction, and a transaction needs a running block. -/
theorem stoppedBlockHasNoStep : Obligations.StoppedBlockHasNoStep := by
  refine ⟨fun i s hcfg hf => ?_, fun s t hstop hnext => ?_, fun s => step_of_bus_nil⟩
  · rw [exec_eq_transact hf]
    exact ⟨fun h => transact_fatal hcfg h _, fun r h => transact_faulted hcfg h _⟩
  · obtain ⟨hready, -⟩ := step_next_effect hnext
    exact hstop hready.running

/-- Settles O11: each of the three faults fails a check of the configuration, which construction and every step ask
for. -/
theorem badConfigurationIsRefused : Obligations.BadConfigurationIsRefused := by
  intro cfg hbad
  have hnot : cfgOk cfg ≠ true := by
    intro hok
    obtain ⟨hbanks, -, hram, hliteral⟩ := (cfgOk_iff cfg).1 hok
    rcases hbad with hzero | ⟨hbig, hnoRam⟩ | ⟨hfam, hformula, hfn⟩
    · omega
    · exact absurd (hram hbig) (by simp [hnoRam])
    · simpa [hfn] using hliteral hfam hformula
  refine ⟨construct_refused hnot, fun s t hs hnext => ?_⟩
  obtain ⟨hready, -⟩ := step_next_effect hnext
  exact hnot (hs ▸ hready.cfgOk)

end Sys2Proof.Proofs
end

section
/-! PROOF. The statements on every form at once: its frame, the registers its family writes, the RTC file, the recompute
table and the stops (10_state.md R44, R52; 43_write_mbc3_rtc.md R178; 46_bank_index.md R237; 60_exceptions.md R250 to
R256). -/

namespace Sys2Proof.Machine

/-! ## The registers -/

/-- The Register Bank after a form: what it stores (30_encoding.md R97; MBC3_SEL by 43_write_mbc3_rtc.md R163).  It
depends on the registers alone. -/
def regsAfter (i : Instr) (g : RegBank) : RegBank :=
  match i with
  | .mbc1Ramen _ v | .mbc2Ramen _ v | .mbc3Ramen _ v | .mbc5Ramen _ v => g.set .ramEnable (low4 v)
  | .mbc1Romb _ v | .mbc3Romb _ v => g.set .romBankNumber (low5 v)
  | .mbc2Romb _ v => g.set .romBankNumber (low4 v)
  | .mbc5RombLo _ v => g.set .romBankNumber v
  | .mbc5RombHi _ v => g.set .highRomBankBit (low1 v)
  | .mbc1Ramb _ v => g.set .ramBankNumber (low2 v)
  | .mbc5Ramb _ v => g.set .ramBankNumber v
  | .mbc1Mode _ v => g.set .bankingMode (low1 v)
  | .mbc3Sel _ v =>
    if selectsRam v then (g.set .rtcSelectionMode selRam).set .ramBankNumber v
    else if selectsRtc v then (g.set .rtcSelectionMode selRtc).set .rtcRegisterNumber v
    else g.set .rtcSelectionMode selNone
  | .mbc3Latch _ v => g.set .latchTrigger v
  | _ => g

@[simp] theorem effect_reg (i : Instr) (s : State) : (effect i s).reg = regsAfter i s.reg := by
  cases i <;> simp only [effect, regsAfter, id] <;> (repeat' split) <;> simp

/-- No form changes a register it does not store to. -/
theorem regsAfter_frame {i : Instr} {r : RegName} (h : r ∉ storesTo i) (g : RegBank) :
    (regsAfter i g).get r = g.get r := by
  cases i <;> simp only [storesTo, List.mem_singleton] at h
  case mbc3Sel a v =>
    simp only [← selectsRam_iff, ← selectsRtc_iff] at h
    simp only [regsAfter]
    split_ifs at h ⊢ <;> simp_all
  all_goals simp [regsAfter, h]

/-- What a form stores is in its family's width for that register (10_state.md R32 to R39). -/
theorem regsAfter_lt {i : Instr} {f : Fam} {r : RegName} (hi : formFamily i = some f) (hr : r ∈ storesTo i)
    (g : RegBank) : ((regsAfter i g).get r).toNat < regLimit f r := by
  cases i <;> simp only [formFamily, reduceCtorEq, Option.some.injEq] at hi <;> subst hi
  case mbc3Sel a v =>
    simp only [storesTo, ← selectsRam_iff, ← selectsRtc_iff] at hr
    simp only [regsAfter]
    split_ifs at hr ⊢ with hram hrtc
    · have := (selectsRam_iff v).1 hram
      rcases List.mem_pair.1 hr with rfl | rfl
      · simp [regLimit, selRam]
      · simp [regLimit]; omega
    · have := (selectsRtc_iff v).1 hrtc
      rcases List.mem_pair.1 hr with rfl | rfl
      · simp [regLimit, selRtc]
      · simp [regLimit]; omega
    · obtain rfl := List.mem_singleton.1 hr
      simp [regLimit, selNone]
  all_goals simp only [storesTo, List.mem_singleton, List.not_mem_nil] at hr
  all_goals
    subst hr
    simp only [regsAfter, RegBank.get_set, if_true, regLimit, toNat_low1, toNat_low2, toNat_low4, toNat_low5]
    omega

/-- The pairs of a family and a register that its rules write: the marks W of 10_state.md R52. -/
def writtenRegisters : List (Fam × RegName) :=
  [(.mbc1, .ramEnable), (.mbc1, .romBankNumber), (.mbc1, .ramBankNumber), (.mbc1, .bankingMode),
    (.mbc2, .ramEnable), (.mbc2, .romBankNumber),
    (.mbc3, .ramEnable), (.mbc3, .romBankNumber), (.mbc3, .ramBankNumber), (.mbc3, .rtcRegisterNumber),
    (.mbc3, .rtcSelectionMode), (.mbc3, .latchTrigger),
    (.mbc5, .ramEnable), (.mbc5, .romBankNumber), (.mbc5, .highRomBankBit), (.mbc5, .ramBankNumber)]

/-- A form that stores to a register is of a family that writes it. -/
theorem writtenRegisters_of_storesTo {i : Instr} {r : RegName} (h : r ∈ storesTo i) :
    ∃ f, formFamily i = some f ∧ (f, r) ∈ writtenRegisters := by
  cases i <;> simp only [storesTo, List.not_mem_nil, List.mem_singleton] at h
  case mbc3Sel a v =>
    refine ⟨_, rfl, ?_⟩
    split_ifs at h
    · rcases List.mem_pair.1 h with rfl | rfl <;> decide
    · rcases List.mem_pair.1 h with rfl | rfl <;> decide
    · obtain rfl := List.mem_singleton.1 h
      decide
  all_goals
    subst h
    exact ⟨_, rfl, by decide⟩

/-! ## The RTC file -/

/-- The RTC file stays, unless the form is a latch whose edge holds (43_write_mbc3_rtc.md R175, R178). -/
theorem effect_rtc_cases (i : Instr) (s : State) : (effect i s).rtc = s.rtc ∨
    ∃ a, i = .mbc3Latch a 1 ∧ s.reg.latchTrigger = 0 ∧ (effect i s).rtc = rtcOfSample s.clk := by
  cases i
  case mbc3Latch a v =>
    by_cases hedge : latchEdge s.reg v = true
    · obtain ⟨htrigger, rfl⟩ := (latchEdge_iff s.reg v).1 hedge
      exact .inr ⟨a, rfl, htrigger, by simp only [effect, hedge, if_true]; rfl⟩
    · exact .inl (by simp [effect, hedge])
  all_goals
    left
    simp only [effect, id] <;> (repeat' split) <;> simp

/-! ## The recompute table (46_bank_index.md R237) -/

/-- A form that recomputes the ROM bank is of a family with a formula. -/
theorem recomputesRom_family {i : Instr} (h : recomputesRom i = true) :
    ∃ f, formFamily i = some f ∧ (f = .mbc1 ∨ f = .mbc2 ∨ f = .mbc3 ∨ f = .mbc5) := by
  cases i <;> simp only [recomputesRom, Bool.false_eq_true] at h <;> exact ⟨_, rfl, by decide⟩

theorem effect_romBank_of_recomputes {i : Instr} {s : State} (hc : cfgOk s.cfg = true)
    (hf : ∀ f, formFamily i = some f → famOf s.cfg = f) (h : recomputesRom i = true) :
    computeRomBank s.cfg (effect i s).reg = some (effect i s).currentRomBank := by
  obtain ⟨f, hi, hfour⟩ := recomputesRom_family h
  obtain ⟨b, hb⟩ := computeRomBank_isSome hc (effect i s).reg (hf f hi ▸ hfour)
  rw [hb, (effect_recomputesRom h hb).1]

theorem effect_romBank_of_not_recomputes {i : Instr} (h : recomputesRom i = false) (s : State) :
    (effect i s).currentRomBank = s.currentRomBank := by
  cases i <;> simp only [recomputesRom, Bool.true_eq_false] at h <;>
    simp only [effect, id] <;> (repeat' split) <;> simp

theorem effect_ramBank_of_recomputes {i : Instr} {s : State} (h : recomputesRam s.reg i = true) :
    (effect i s).currentRamBank = computeRamBank s.cfg (effect i s).reg := by
  cases i <;> simp only [recomputesRam, Bool.false_eq_true] at h
  case mbc1Mode a v => simp only [effect, h, if_true]; rfl
  case mbc3Sel a v =>
    have hram : selectsRam v = true := h
    simp only [effect, hram, if_true]; rfl
  case mbc1Ramb a v => simp [effect]
  all_goals rfl

theorem effect_ramBank_of_not_recomputes {i : Instr} {s : State} (h : recomputesRam s.reg i = false) :
    (effect i s).currentRamBank = s.currentRamBank := by
  cases i <;> simp only [recomputesRam, Bool.true_eq_false] at h
  case mbc1Mode a v => simp [effect, h]
  case mbc3Sel a v =>
    have hram : selectsRam v = false := h
    simp only [effect, hram, Bool.false_eq_true, if_false]
    split <;> rfl
  all_goals simp only [effect, id] <;> (repeat' split) <;> simp

/-! ## The stops (60_exceptions.md R250 to R256) -/

/-- A form of an unsupported family does nothing but stop as FATAL. -/
theorem effect_of_unsupported {i : Instr} (h : formFamily i = some .unsupported) : effect i = raiseFatal := by
  cases i <;> simp [formFamily] at h <;> rfl

/-- A form that leaves its block stopped is a fatal write, or a ROM read past the image, and does nothing else. -/
theorem effect_stop_cases (i : Instr) {s : State} (hs : s.stop = .running) :
    (effect i s).stop = .running ∨
    (instrIsWrite i = true ∧ formFamily i = some .unsupported ∧ effect i s = raiseFatal s) ∨
    (instrIsWrite i = false ∧ ∃ (b : Nat) (o : RomOff), s.cfg.romBankCount ≤ b ∧
      effect i s = raiseRomFault b (instrAddr i) (present b o s)) := by
  cases hw : instrIsWrite i with
  | true =>
    rcases effect_write_stop hw s with hstop | ⟨-, hfam⟩
    · exact .inl (hstop.trans hs)
    · exact .inr (.inl ⟨rfl, hfam, by rw [effect_of_unsupported hfam]⟩)
  | false =>
    rcases effect_read_cases hw s with heff | heff | ⟨-, b, heff⟩
    · exact .inl (by rw [heff]; exact hs)
    · exact .inl (by rw [heff, rtcRead_stop, hs])
    · rcases Nat.lt_or_ge b s.cfg.romBankCount with hin | hout
      · exact .inl (by rw [heff, romRead_in hin]; exact hs)
      · exact .inr (.inr ⟨rfl, b, _, hout, by rw [heff, romRead_out hout]; rfl⟩)

end Sys2Proof.Machine

namespace Sys2Proof.Proofs

open Sys2Proof.Machine

/-- Settles O34: the RTC file of the effect is the one before, or the sample of a latch whose edge holds. -/
theorem rtcChangesOnlyAtALatch : Obligations.RtcChangesOnlyAtALatch := by
  intro i s t hnext hne
  obtain ⟨-, hf, rfl⟩ := exec_next.1 hnext
  rcases effect_rtc_cases i (clearOutputs s) with hsame | ⟨a, rfl, htrigger, hrtc⟩
  · exact absurd hsame hne
  · exact ⟨a, rfl, hf _ rfl, htrigger, hrtc⟩

/-- Settles O42: the three cases of the effect on the stop of a running block. -/
theorem onlyTwoStopsArise : Obligations.OnlyTwoStopsArise := by
  intro i s t hnext
  obtain ⟨hs, hf, rfl⟩ := exec_next.1 hnext
  rcases effect_stop_cases i (s := clearOutputs s) hs.running with hrun | ⟨hw, hfam, heff⟩ | ⟨hr, b, o, hb, heff⟩
  · exact .inl hrun
  · exact .inr (.inl (by rw [heff]; exact ⟨rfl, hw, hf _ hfam, rfl⟩))
  · exact .inr (.inr ⟨b, by rw [heff]; exact ⟨rfl, hr, hb, rfl, rfl, rfl⟩⟩)

/-- Settles O43: the two cases of an effect that stops write the stop and the port, and nothing else. -/
theorem stopsArePrecise : Obligations.StopsArePrecise := by
  intro i s t hnext hstop
  obtain ⟨hs, -, rfl⟩ := exec_next.1 hnext
  rcases effect_stop_cases i (s := clearOutputs s) hs.running with hrun | ⟨-, -, heff⟩ | ⟨-, b, o, -, heff⟩
  · exact absurd hrun hstop
  · rw [heff]; exact ⟨⟨rfl, rfl, rfl, rfl⟩, rfl, rfl, rfl⟩
  · rw [heff]; exact ⟨⟨rfl, rfl, rfl, rfl⟩, rfl, rfl, rfl⟩

/-- Settles O44: the next state is the effect, whose frame is said above, field by field. -/
theorem frameOfEveryForm : Obligations.FrameOfEveryForm := by
  intro i s t hnext
  obtain ⟨-, -, rfl⟩ := exec_next.1 hnext
  refine ⟨fun r hr => ?_, fun hlatch => ?_, fun bank off => ?_, by simp, by simp, by simp⟩
  · rw [effect_reg]; exact regsAfter_frame hr s.reg
  · rcases effect_rtc_cases i (clearOutputs s) with hsame | ⟨a, rfl, -⟩
    · exact hsame
    · exact absurd rfl (hlatch a 1)
  · rw [effect_cfg]; rfl

/-- Settles O45: the four lines of the recompute table, each a fact about the effect. -/
theorem bankIndicesFollowTheRecomputeTable : Obligations.BankIndicesFollowTheRecomputeTable := by
  intro i s t hnext
  obtain ⟨hs, hf, rfl⟩ := exec_next.1 hnext
  rw [effect_cfg]
  exact ⟨effect_romBank_of_recomputes (s := clearOutputs s) hs.cfgOk hf,
    fun h => effect_romBank_of_not_recomputes h (clearOutputs s),
    effect_ramBank_of_recomputes (s := clearOutputs s), effect_ramBank_of_not_recomputes (s := clearOutputs s)⟩

/-- Settles O46: a register that a step changes is one its form stores to, and the form is of the configured family. -/
theorem familiesWriteOnlyTheirRegisters : Obligations.FamiliesWriteOnlyTheirRegisters := by
  intro s t r hnext hne
  obtain ⟨-, x, rest, -, hf, rfl⟩ := step_next_effect hnext
  have hstored : r ∈ storesTo (decode (txnWord s.cfg x)) := by
    by_contra hr
    exact hne (by rw [effect_reg]; exact regsAfter_frame hr s.reg)
  obtain ⟨f, hi, hmem⟩ := writtenRegisters_of_storesTo hstored
  rw [hf f hi]
  exact hmem

/-- Settles O47: no step changes the configuration, and the image is part of it. -/
theorem stepsNeverChangeTheRom : Obligations.StepsNeverChangeTheRom :=
  fun _ _ hnext => ⟨step_cfg hnext, fun _ _ => by rw [step_cfg hnext]⟩

end Sys2Proof.Proofs
end

section
/-! PROOF. The statements of 10_state.md and 70_reset_and_hazards.md: the state that construction gives, the invariant
every step keeps, and the values of `currentRomBank` under it (R31 to R53; 46_bank_index.md R228). -/

namespace Sys2Proof.Machine

/-! ## Construction -/

theorem RegBank.get_empty (r : RegName) : RegBank.empty.get r = 0 := by cases r <;> rfl

theorem regLimit_pos (f : Fam) (r : RegName) : 0 < regLimit f r := by cases r <;> cases f <;> decide

/-- The state after construction meets the invariant: all registers 0, and the reset mapping of bank 1. -/
theorem inv_ofConfig {cfg : Cfg} (h : cfgOk cfg = true) : (State.ofConfig cfg).Inv where
  cfg := h
  widths r := by
    rw [show (State.ofConfig cfg).reg = RegBank.empty from rfl, RegBank.get_empty]
    exact regLimit_pos _ r
  rtcIndex hrtc := absurd (show (0 : Byte) = selRtc from hrtc) (by decide)
  romBank := .inr ⟨rfl, rfl, rfl⟩
  romBankMbc1 _ := rfl
  ramBank := .inl rfl
  ramBankFresh := .inl ((computeRamBank_cases cfg RegBank.empty).elim Eq.symm Eq.symm)
  ramBankSmall _ _ := rfl
  rtcLegal := .inl rfl
  rtcFamily _ := rfl
  fatal hfatal := nomatch hfatal

/-! ## The ROM bank of each family (46_bank_index.md R221 to R227) -/

section ComputeRomBank
variable {cfg : Cfg}

theorem computeRomBank_mbc1 (hf : famOf cfg = .mbc1) (g : RegBank) :
    computeRomBank cfg g = some (computeRomBankMbc1 g) := by
  simp [computeRomBank, hf]

theorem computeRomBank_mbc2 (hf : famOf cfg = .mbc2) (g : RegBank) :
    computeRomBank cfg g = some g.romBankNumber.toNat := by
  simp [computeRomBank, hf, computeRomBankDirect]

theorem computeRomBank_mbc3 (hf : famOf cfg = .mbc3) (g : RegBank) :
    computeRomBank cfg g = some g.romBankNumber.toNat := by
  simp [computeRomBank, hf, computeRomBankDirect]

theorem computeRomBank_mbc5_corrected (hf : famOf cfg = .mbc5) (hc : cfg.mbc5RomFormula = .corrected) (g : RegBank) :
    computeRomBank cfg g = some (computeRomBankMbc5 g) := by
  simp [computeRomBank, hf, hc]

theorem computeRomBank_mbc5_literal {f : Vector Nat 256} (hf : famOf cfg = .mbc5) (hl : cfg.mbc5RomFormula = .literal)
    (hfn : cfg.mbc5LiteralFn = some f) (g : RegBank) :
    computeRomBank cfg g = some (f.get g.romBankNumber.toFin) := by
  simp [computeRomBank, hf, hl, computeRomBankLiteral, hfn]

theorem computeRomBank_none (hf : famOf cfg = .noMbc ∨ famOf cfg = .unsupported) (g : RegBank) :
    computeRomBank cfg g = none := by
  rcases hf with hf | hf <;> simp [computeRomBank, hf]

/-- What the ROM bank is computed from: the two halves of its number and, under MBC1, the RAM bank register. -/
theorem computeRomBank_congr {g g' : RegBank} (hrom : g'.romBankNumber = g.romBankNumber)
    (hhigh : g'.highRomBankBit = g.highRomBankBit)
    (hram : famOf cfg = .mbc1 → g'.ramBankNumber = g.ramBankNumber) :
    computeRomBank cfg g' = computeRomBank cfg g := by
  cases hf : famOf cfg <;>
    simp [computeRomBank, hf, hram, hrom, hhigh, computeRomBankMbc1, computeRomBankDirect, computeRomBankMbc5,
      computeRomBankLiteral]

end ComputeRomBank

/-! ## What a form that does not recompute an index leaves of its registers -/

/-- A form that does not recompute the ROM bank stores to none of the registers it is computed from. -/
theorem regsAfter_romBank_regs {i : Instr} (h : recomputesRom i = false) (g : RegBank) :
    (regsAfter i g).romBankNumber = g.romBankNumber ∧ (regsAfter i g).highRomBankBit = g.highRomBankBit ∧
    ((∀ f, formFamily i = some f → f = .mbc1) → (regsAfter i g).ramBankNumber = g.ramBankNumber) := by
  cases i <;> simp only [recomputesRom, Bool.true_eq_false] at h
  case mbc3Sel a v =>
    simp only [regsAfter]
    exact ⟨by split_ifs <;> rfl, by split_ifs <;> rfl, fun hf => nomatch hf _ rfl⟩
  case mbc5Ramb a v => exact ⟨rfl, rfl, fun hf => nomatch hf _ rfl⟩
  all_goals exact ⟨rfl, rfl, fun _ => rfl⟩

theorem computeRomBank_regsAfter {cfg : Cfg} {i : Instr} (hf : ∀ f, formFamily i = some f → famOf cfg = f)
    (h : recomputesRom i = false) (g : RegBank) : computeRomBank cfg (regsAfter i g) = computeRomBank cfg g := by
  obtain ⟨hrom, hhigh, hram⟩ := regsAfter_romBank_regs h g
  exact computeRomBank_congr hrom hhigh fun h1 => hram fun f hi => (hf f hi).symm.trans h1

/-- The registers under which `currentRamBank` may be stale (10_state.md R43 cases b and c). -/
def RamBankMayBeStale (cfg : Cfg) (g : RegBank) : Prop :=
  (famOf cfg = .mbc1 ∧ isRamEnabled g = false) ∨ (famOf cfg = .mbc3 ∧ g.rtcSelectionMode ≠ selRam)

/-- A form that does not recompute the RAM bank leaves registers under which it may be stale, or stores to none of the
registers that it is computed from and that make it stale. -/
theorem regsAfter_ramBank_regs {cfg : Cfg} {i : Instr} {g : RegBank}
    (hf : ∀ f, formFamily i = some f → famOf cfg = f) (h : recomputesRam g i = false) :
    RamBankMayBeStale cfg (regsAfter i g) ∨
    ((regsAfter i g).bankingMode = g.bankingMode ∧ (regsAfter i g).ramBankNumber = g.ramBankNumber ∧
      (regsAfter i g).rtcSelectionMode = g.rtcSelectionMode ∧ (regsAfter i g).ramEnable = g.ramEnable) := by
  cases i <;> simp only [recomputesRam, Bool.true_eq_false] at h
  case mbc1Mode a v => exact .inl (.inl ⟨hf _ rfl, h⟩)
  case mbc3Sel a v =>
    have hram : selectsRam v = false := h
    refine .inl (.inr ⟨hf _ rfl, ?_⟩)
    simp only [regsAfter, hram, Bool.false_eq_true, if_false]
    split
    · exact (by decide : selRtc ≠ selRam)
    · exact (by decide : selNone ≠ selRam)
  all_goals exact .inr ⟨rfl, rfl, rfl, rfl⟩

/-- Every store to RAM_BANK_NUMBER comes with a recompute of the RAM bank. -/
theorem regsAfter_ramBankNumber {i : Instr} {g : RegBank} (h : recomputesRam g i = false) :
    (regsAfter i g).ramBankNumber = g.ramBankNumber := by
  cases i <;> simp only [recomputesRam, Bool.true_eq_false] at h
  case mbc3Sel a v =>
    have hram : selectsRam v = false := h
    simp only [regsAfter, hram, Bool.false_eq_true, if_false]
    split <;> rfl
  all_goals rfl

theorem computeRamBank_congr {cfg : Cfg} {g g' : RegBank} (hmode : g'.bankingMode = g.bankingMode)
    (hram : g'.ramBankNumber = g.ramBankNumber) (hsel : g'.rtcSelectionMode = g.rtcSelectionMode) :
    computeRamBank cfg g' = computeRamBank cfg g := by
  simp only [computeRamBank, computeRamBankMbc1, computeRamBankMbc3, hmode, hram, hsel]

/-- MBC1 without more than 8 KB of RAM maps RAM bank 0 (46_bank_index.md R231). -/
theorem computeRamBank_small {cfg : Cfg} (hf : famOf cfg = .mbc1) (hsmall : cfg.ramGt8KB = false) (g : RegBank) :
    computeRamBank cfg g = 0 := by
  simp [computeRamBank, hf, computeRamBankMbc1, hsmall]

/-- RTC mode keeps an index of the file selected: one store sets both (10_state.md R36). -/
theorem regsAfter_rtcIndex (i : Instr) {g : RegBank}
    (h : g.rtcSelectionMode = selRtc → 0x08 ≤ g.rtcRegisterNumber.toNat) :
    (regsAfter i g).rtcSelectionMode = selRtc → 0x08 ≤ (regsAfter i g).rtcRegisterNumber.toNat := by
  cases i
  case mbc3Sel a v =>
    simp only [regsAfter]
    split_ifs with hram hrtc
    · exact fun hsel => absurd (show selRam = selRtc from hsel) (by decide)
    · exact fun _ => ((selectsRtc_iff v).1 hrtc).1
    · exact fun hsel => absurd (show selNone = selRtc from hsel) (by decide)
  all_goals exact h

/-! ## The invariant is kept, field by field -/

section Effect
variable {i : Instr} {s : State} (h : s.Inv) (hf : ∀ f, formFamily i = some f → famOf s.cfg = f)
include h hf

theorem State.Inv.effect_widths (r : RegName) : ((effect i s).reg.get r).toNat < regLimit (famOf s.cfg) r := by
  rw [effect_reg]
  by_cases hr : r ∈ storesTo i
  · obtain ⟨f, hi, -⟩ := writtenRegisters_of_storesTo hr
    rw [hf f hi]
    exact regsAfter_lt hi hr s.reg
  · rw [regsAfter_frame hr]
    exact h.widths r

/-- A ROM bank that its registers give is kept so. -/
theorem State.Inv.effect_romBank_fresh (hfresh : computeRomBank s.cfg s.reg = some s.currentRomBank) :
    computeRomBank s.cfg (effect i s).reg = some (effect i s).currentRomBank := by
  cases hrec : recomputesRom i with
  | true => exact effect_romBank_of_recomputes h.cfg hf hrec
  | false => rw [effect_reg, computeRomBank_regsAfter hf hrec, effect_romBank_of_not_recomputes hrec, hfresh]

/-- The reset mapping lasts until the first recompute. -/
theorem State.Inv.effect_romBank : computeRomBank s.cfg (effect i s).reg = some (effect i s).currentRomBank ∨
    ((effect i s).currentRomBank = 1 ∧ (effect i s).reg.romBankNumber = 0 ∧
      (effect i s).reg.highRomBankBit = 0) := by
  rcases h.romBank with hfresh | ⟨hone, hlow, hhigh⟩
  · exact .inl (h.effect_romBank_fresh hf hfresh)
  cases hrec : recomputesRom i with
  | true => exact .inl (effect_romBank_of_recomputes h.cfg hf hrec)
  | false =>
    obtain ⟨hlow', hhigh', -⟩ := regsAfter_romBank_regs hrec s.reg
    rw [effect_romBank_of_not_recomputes hrec, effect_reg]
    exact .inr ⟨hone, hlow'.trans hlow, hhigh'.trans hhigh⟩

theorem State.Inv.effect_romBankMbc1 (hm : famOf s.cfg = .mbc1) :
    (effect i s).currentRomBank = computeRomBankMbc1 (effect i s).reg := by
  have hfresh := h.effect_romBank_fresh hf ((computeRomBank_mbc1 hm _).trans (by rw [← h.romBankMbc1 hm]))
  rw [computeRomBank_mbc1 hm] at hfresh
  exact (Option.some.inj hfresh).symm

omit hf in
theorem State.Inv.effect_ramBank :
    (effect i s).currentRamBank = 0 ∨ (effect i s).currentRamBank = (effect i s).reg.ramBankNumber.toNat := by
  cases hrec : recomputesRam s.reg i with
  | true => rw [effect_ramBank_of_recomputes hrec]; exact computeRamBank_cases ..
  | false =>
    rw [effect_ramBank_of_not_recomputes hrec, effect_reg, regsAfter_ramBankNumber hrec]
    exact h.ramBank

theorem State.Inv.effect_ramBankFresh : (effect i s).currentRamBank = computeRamBank s.cfg (effect i s).reg ∨
    RamBankMayBeStale s.cfg (effect i s).reg := by
  cases hrec : recomputesRam s.reg i with
  | true => exact .inl (effect_ramBank_of_recomputes hrec)
  | false =>
    rw [effect_ramBank_of_not_recomputes hrec, effect_reg]
    rcases regsAfter_ramBank_regs hf hrec with hstale | ⟨hmode, hram, hsel, hen⟩
    · exact .inr hstale
    · rw [computeRamBank_congr hmode hram hsel, RamBankMayBeStale, isRamEnabled, hen, hsel]
      exact h.ramBankFresh

omit hf in
theorem State.Inv.effect_ramBankSmall (hm : famOf s.cfg = .mbc1) (hsmall : s.cfg.ramGt8KB = false) :
    (effect i s).currentRamBank = 0 := by
  cases hrec : recomputesRam s.reg i with
  | true => rw [effect_ramBank_of_recomputes hrec, computeRamBank_small hm hsmall]
  | false => rw [effect_ramBank_of_not_recomputes hrec, h.ramBankSmall hm hsmall]

omit hf in
theorem State.Inv.effect_rtcLegal : (effect i s).rtc.legal := by
  rcases effect_rtc_cases i s with hsame | ⟨a, -, -, hrtc⟩
  · rw [hsame]; exact h.rtcLegal
  · exact .inr ⟨s.clk, hrtc⟩

theorem State.Inv.effect_rtcFamily (hm : famOf s.cfg ≠ .mbc3) : (effect i s).rtc = RtcFile.unlatched := by
  rcases effect_rtc_cases i s with hsame | ⟨a, rfl, -⟩
  · rw [hsame, h.rtcFamily hm]
  · exact absurd (hf _ rfl) hm

/-- The effect of every form of the configured family keeps the invariant of a running block. -/
theorem State.Inv.effect_inv (hrun : s.stop = .running) : (effect i s).Inv where
  cfg := by rw [effect_cfg]; exact h.cfg
  widths := by rw [effect_cfg]; exact h.effect_widths hf
  rtcIndex := by rw [effect_reg]; exact regsAfter_rtcIndex i h.rtcIndex
  romBank := by rw [effect_cfg]; exact h.effect_romBank hf
  romBankMbc1 := by rw [effect_cfg]; exact h.effect_romBankMbc1 hf
  ramBank := h.effect_ramBank
  ramBankFresh := by rw [effect_cfg]; exact h.effect_ramBankFresh hf
  ramBankSmall := by rw [effect_cfg]; exact h.effect_ramBankSmall
  rtcLegal := h.effect_rtcLegal
  rtcFamily := by rw [effect_cfg]; exact h.effect_rtcFamily hf
  fatal hfatal := by
    rw [effect_cfg]
    rcases effect_stop_cases i hrun with hstop | ⟨-, hfam, -⟩ | ⟨-, b, o, -, heff⟩
    · exact nomatch hstop.symm.trans hfatal
    · exact hf _ hfam
    · rw [heff] at hfatal; exact nomatch hfatal
end Effect

/-- The invariant does not speak of the interface. -/
theorem State.Inv.interface {s : State} (h : s.Inv) (bus : List BusTxn) (clk : ClockSample) :
    (clearOutputs { s with bus := bus, clk := clk }).Inv :=
  { h with }

end Sys2Proof.Machine

namespace Sys2Proof.Proofs

open Sys2Proof.Machine

/-- Settles O10: construction with an accepted configuration gives the one state that holds the reset values. -/
theorem constructionLeavesTheResetValues : Obligations.ConstructionLeavesTheResetValues := by
  intro cfg hok
  exact ⟨State.ofConfig cfg, construct_next.2 ⟨hok, rfl⟩, RegBank.get_empty, rfl, rfl, rfl, rfl, rfl, rfl, rfl, rfl,
    hok, rfl⟩

/-- Settles O12: reset and construction give the state of an accepted configuration. -/
theorem constructedStatesMeetTheInvariant : Obligations.ConstructedStatesMeetTheInvariant := by
  refine ⟨inv_ofConfig (by decide), fun cfg s hs => ?_⟩
  obtain ⟨hok, rfl⟩ := construct_next.1 hs
  exact inv_ofConfig hok

/-- Settles O13: a step is the effect of a form of the configured family on a running block, and that keeps each part
of the invariant. -/
theorem everyStepKeepsTheInvariant : Obligations.EveryStepKeepsTheInvariant := by
  intro s t hinv hnext
  obtain ⟨hs, x, rest, -, hf, rfl⟩ := step_next_effect hnext
  exact (hinv.interface rest (clkFor x s.clk)).effect_inv hf hs.running

/-- Settles O14: the bank is what the registers give, whose widths bound it, or the reset mapping of bank 1. -/
theorem romBankRangeByFamily : Obligations.RomBankRangeByFamily := by
  intro s h
  have hrom := h.widths .romBankNumber
  have hram := h.widths .ramBankNumber
  have hhigh := h.widths .highRomBankBit
  have hbank := h.romBank
  simp only [RegBank.get] at hrom hram hhigh
  refine ⟨fun hf => ?_, fun hf => ?_, fun hf => ?_, fun hf hc => ?_, fun hf hl => ?_, fun hf => ?_⟩
  · rw [h.romBankMbc1 hf, computeRomBankMbc1]
    simp only [hf, regLimit] at hrom hram
    rw [shift5_or hrom, Nat.shiftLeft_eq]
    split_ifs <;> omega
  · rw [computeRomBank_mbc2 hf, Option.some.injEq] at hbank
    simp only [hf, regLimit] at hrom
    omega
  · rw [computeRomBank_mbc3 hf, Option.some.injEq] at hbank
    simp only [hf, regLimit] at hrom
    omega
  · rw [computeRomBank_mbc5_corrected hf hc, Option.some.injEq, computeRomBankMbc5] at hbank
    simp only [hf, regLimit] at hrom hhigh
    rw [shift8_or hrom] at hbank
    omega
  · obtain ⟨-, -, -, hfn⟩ := (cfgOk_iff s.cfg).1 h.cfg
    obtain ⟨f, hf'⟩ := Option.isSome_iff_exists.1 (hfn hf hl)
    rw [computeRomBank_mbc5_literal hf hl hf', Option.some.injEq] at hbank
    rcases hbank with hfresh | ⟨hone, -⟩
    · exact .inr ⟨f, _, hf', hfresh.symm⟩
    · exact .inl hone
  · rw [computeRomBank_none hf] at hbank
    rcases hbank with hnone | ⟨hone, -⟩
    · exact nomatch hnone
    · exact hone

end Sys2Proof.Proofs
end

section
/-! PROOF. The statements of 40_read_path.md on what each read answers (R111 to R117), and what it does not depend
on. -/

namespace Sys2Proof

/-! ## The offset of a ROM read -/

/-- In the switchable window the offset counts from 0x4000 (20_memory.md R69). -/
theorem toNat_offset_high {a : Addr} (hlo : 0x4000 ≤ a.toNat) (hhi : a.toNat ≤ 0x7FFF) :
    (a.extractLsb' 0 14).toNat = a.toNat - 0x4000 := by
  rw [toNat_offset]; omega

theorem toNat_offset_low {a : Addr} (h : a.toNat ≤ 0x3FFF) : (a.extractLsb' 0 14).toNat = a.toNat := by
  rw [toNat_offset]; omega

/-! ## The form of each window -/

section Windows
variable (f : FamCode) {a : Addr} (v : Byte)

theorem decode_rdRom0 (h : a.toNat ≤ 0x3FFF) : decode (txn28 f 0 a v) = .rdRom0 f a := by
  simp (disch := omega) only [decode_read, decodeRead_ranges, if_pos]

theorem decode_rdRomx (hlo : 0x4000 ≤ a.toNat) (hhi : a.toNat ≤ 0x7FFF) :
    decode (txn28 f 0 a v) = .rdRomx f a := by
  simp (disch := omega) only [decode_read, decodeRead_ranges, if_pos, if_neg]

theorem decode_rdXram (hlo : 0xA000 ≤ a.toNat) (hhi : a.toNat ≤ 0xBFFF) :
    decode (txn28 f 0 a v) = .rdXram f a := by
  simp (disch := omega) only [decode_read, decodeRead_ranges, if_pos, if_neg]

theorem decode_rdOpen (hlo : 0x8000 ≤ a.toNat) (hout : ¬(0xA000 ≤ a.toNat ∧ a.toNat ≤ 0xBFFF)) :
    decode (txn28 f 0 a v) = .rdOpenLow f a ∨ decode (txn28 f 0 a v) = .rdOpenHigh f a := by
  rcases Nat.lt_or_ge a.toNat 0xA000 with hlow | hhigh
  · left; simp (disch := omega) only [decode_read, decodeRead_ranges, if_pos, if_neg]
  · right; simp (disch := omega) only [decode_read, decodeRead_ranges, if_neg]
end Windows

end Sys2Proof

namespace Sys2Proof.Machine

theorem romOffset_high {a : Addr} (hlo : 0x4000 ≤ a.toNat) (hhi : a.toNat ≤ 0x7FFF) :
    romOffset a = BitVec.ofNat 14 (a.toNat - 0x4000) := by
  rw [← toNat_offset_high hlo hhi, BitVec.ofNat_toNat, BitVec.setWidth_eq, romOffset]

theorem romOffset_low {a : Addr} (h : a.toNat ≤ 0x3FFF) : romOffset a = BitVec.ofNat 14 a.toNat := by
  rw [← toNat_offset_low h, BitVec.ofNat_toNat, BitVec.setWidth_eq, romOffset]

/-! ## The effect of each read form -/

/-- While the block runs, a read form gives its effect, whatever the family. -/
theorem exec_read {i : Instr} {s : State} (hs : s.Ready) (hi : formFamily i = none) :
    exec i s = .next (effect i (clearOutputs s)) :=
  exec_ready hs fun _ hf => nomatch hi.symm.trans hf

section Effect
variable (f : FamCode) (a : Addr) {s : State}

/-- Outside the quirk the fixed window is a ROM read of bank 0 (R112). -/
theorem effect_rdRom0_plain (hq : ¬ mbc1LargeRomQuirk s.cfg s.reg = true) :
    effect (.rdRom0 f a) s = romRead 0 (romOffset a) a s :=
  if_neg hq

/-- Under the quirk the fixed window is a ROM read of bank `RAM_BANK_NUMBER << 5` (R113). -/
theorem effect_rdRom0_quirk (hq : mbc1LargeRomQuirk s.cfg s.reg = true) :
    effect (.rdRom0 f a) s = romRead (s.reg.ramBankNumber.toNat <<< 5) (romOffset a) a s :=
  if_pos hq

theorem effect_rdXram_open (h : ¬ readsRtc s.cfg s.reg = true) : effect (.rdXram f a) s = answer openBus s :=
  if_neg h

theorem effect_rdXram_rtc (h : readsRtc s.cfg s.reg = true) :
    effect (.rdXram f a) s = rtcRead s.reg.rtcRegisterNumber s :=
  if_pos h

end Effect

theorem rtcRead_latched {i v : Byte} {s : State} (h : s.rtc.entry i = .latched v) : rtcRead i s = answer v s := by
  simp [rtcRead, h]

theorem rtcRead_unlatched {i : Byte} {s : State} (h : s.rtc.entry i = .unlatched) : rtcRead i s = answerDraw s := by
  simp [rtcRead, h]

/-- An index that names no entry holds nothing (log entry 9). -/
theorem RtcFile.entry_outside (f : RtcFile) {i : Byte} (h : i.toNat < 0x08 ∨ 0x0C < i.toNat) :
    f.entry i = .unlatched := by
  have hne : ∀ k : Byte, 0x08 ≤ k.toNat → k.toNat ≤ 0x0C → i ≠ k := by
    rintro k hlo hhi rfl
    omega
  rw [RtcFile.entry, if_neg (hne _ (by decide) (by decide)), if_neg (hne _ (by decide) (by decide)),
    if_neg (hne _ (by decide) (by decide)), if_neg (hne _ (by decide) (by decide)),
    if_neg (hne _ (by decide) (by decide))]

section RdXram
variable (f : FamCode) (a : Addr) {s : State} (hs : s.Ready)
include hs

theorem exec_rdXram_open (h : ¬ readsRtc s.cfg s.reg = true) :
    exec (.rdXram f a) s = .next { s with dout := some openBus, romPort := none } := by
  rw [exec_read hs rfl, effect_rdXram_open f a (s := clearOutputs s) h]
  rfl

theorem exec_rdXram_latched {v : Byte} (h : readsRtc s.cfg s.reg = true)
    (he : s.rtc.entry s.reg.rtcRegisterNumber = .latched v) :
    exec (.rdXram f a) s = .next { s with dout := some v, romPort := none } := by
  rw [exec_read hs rfl, effect_rdXram_rtc f a (s := clearOutputs s) h, clearOutputs_reg,
    rtcRead_latched (s := clearOutputs s) he]
  rfl

theorem exec_rdXram_unlatched (h : readsRtc s.cfg s.reg = true)
    (he : s.rtc.entry s.reg.rtcRegisterNumber = .unlatched) :
    exec (.rdXram f a) s =
      .next { s with dout := some (Config.draw8 s.draws), romPort := none, draws := s.draws + 1 } := by
  rw [exec_read hs rfl, effect_rdXram_rtc f a (s := clearOutputs s) h, clearOutputs_reg,
    rtcRead_unlatched (s := clearOutputs s) he]
  rfl

end RdXram

/-! ## What a read does not use -/

/-- The state with other values in the registers and the bank index that no read uses. -/
def withUnread (x y z : Byte) (n : Nat) (s : State) : State :=
  { s with
    reg := { s.reg with ramEnable := x, highRomBankBit := y, latchTrigger := z }
    currentRamBank := n }

section Unread
variable (x y z : Byte) (n : Nat) (s : State)

theorem romRead_withUnread (b : Nat) (o : RomOff) (a : Addr) :
    romRead b o a (withUnread x y z n s) = withUnread x y z n (romRead b o a s) := by
  rcases Nat.lt_or_ge b s.cfg.romBankCount with hin | hout
  · rw [romRead_in hin, romRead_in (s := withUnread x y z n s) hin]; rfl
  · rw [romRead_out hout, romRead_out (s := withUnread x y z n s) hout]; rfl

theorem rtcRead_withUnread (i : Byte) :
    rtcRead i (withUnread x y z n s) = withUnread x y z n (rtcRead i s) := by
  cases he : s.rtc.entry i with
  | latched v => rw [rtcRead_latched he, rtcRead_latched (s := withUnread x y z n s) he]; rfl
  | unlatched => rw [rtcRead_unlatched he, rtcRead_unlatched (s := withUnread x y z n s) he]; rfl

/-- A read does the same whatever those registers hold, and leaves them. -/
theorem effect_read_withUnread {i : Instr} (h : instrIsWrite i = false) :
    effect i (withUnread x y z n s) = withUnread x y z n (effect i s) := by
  cases i <;> simp only [instrIsWrite, reduceCtorEq] at h
  case rdRom0 f a =>
    by_cases hq : mbc1LargeRomQuirk s.cfg s.reg = true
    · rw [effect_rdRom0_quirk f a hq, effect_rdRom0_quirk (s := withUnread x y z n s) f a hq]
      exact romRead_withUnread ..
    · rw [effect_rdRom0_plain f a hq, effect_rdRom0_plain (s := withUnread x y z n s) f a hq]
      exact romRead_withUnread ..
  case rdRomx f a => exact romRead_withUnread ..
  case rdXram f a =>
    by_cases hr : readsRtc s.cfg s.reg = true
    · rw [effect_rdXram_rtc f a hr, effect_rdXram_rtc (s := withUnread x y z n s) f a hr]
      exact rtcRead_withUnread ..
    · rw [effect_rdXram_open f a hr, effect_rdXram_open (s := withUnread x y z n s) f a hr]
      rfl
  all_goals rfl

end Unread

end Sys2Proof.Machine

namespace Sys2Proof.Proofs

open Sys2Proof.Machine

/-- Settles O15: the effect is a ROM read of `currentRomBank`, in the image or past it. -/
theorem switchableWindowRead : Obligations.SwitchableWindowRead := by
  intro f a v s hs
  rw [exec_read hs rfl]
  refine ⟨fun hlo hhi => ⟨decode_rdRomx f v hlo hhi, toNat_offset_high hlo hhi⟩, fun hin => ?_, fun hout => ?_⟩
  · exact congrArg _ (romRead_in (s := clearOutputs s) hin ..)
  · exact congrArg _ (romRead_out (s := clearOutputs s) hout ..)

/-- Settles O16: outside the quirk the effect is a read of bank 0; under it, a ROM read of RAM_BANK_NUMBER times 32,
in the image or past it. -/
theorem fixedWindowRead : Obligations.FixedWindowRead := by
  intro f a v s hs
  rw [exec_read hs rfl]
  refine ⟨fun hhi => ⟨decode_rdRom0 f v hhi, toNat_offset_low hhi⟩, fun hno => ?_, fun hf hm hge hlow => ?_⟩
  · rw [effect_rdRom0_plain f a (s := clearOutputs s) (mt (mbc1LargeRomQuirk_iff _ _).1 hno)]
    exact congrArg _ (romRead_in (s := clearOutputs s) hs.bankCount ..)
  · rw [effect_rdRom0_quirk f a (s := clearOutputs s) ((mbc1LargeRomQuirk_iff _ _).2 ⟨hf, hm, hge, hlow⟩),
      Nat.shiftLeft_eq]
    exact ⟨fun hin => congrArg _ (romRead_in (s := clearOutputs s) hin ..),
      fun hout => congrArg _ (romRead_out (s := clearOutputs s) hout ..)⟩

/-- Settles O17: an RTC read needs all three conditions, and then answers the entry at the index, or draws where that
entry is UNLATCHED or is none. -/
theorem ramRtcWindowRead : Obligations.RamRtcWindowRead := by
  intro f a s hs
  refine ⟨fun hno => exec_rdXram_open f a hs ?_, fun hram hf hmode => ?_⟩
  · rw [readsRtc_iff]
    rintro ⟨hram, hf, hmode⟩
    simp [hram, hf, hmode] at hno
  have hrtc : readsRtc s.cfg s.reg = true := (readsRtc_iff _ _).2 ⟨hram, hf, hmode⟩
  refine ⟨fun v hv => exec_rdXram_latched f a hs hrtc ?_, fun hnone => exec_rdXram_unlatched f a hs hrtc ?_⟩
  · rcases hv with ⟨hi, he⟩ | ⟨hi, he⟩ | ⟨hi, he⟩ | ⟨hi, he⟩ | ⟨hi, he⟩ <;> rw [hi] <;> exact he
  · rcases hnone with ⟨hi, he⟩ | ⟨hi, he⟩ | ⟨hi, he⟩ | ⟨hi, he⟩ | ⟨hi, he⟩ | hout
    case inr.inr.inr.inr.inr => exact s.rtc.entry_outside hout
    all_goals rw [hi]; exact he

/-- Settles O18: the effect of both forms is the open-bus answer. -/
theorem openRegionRead : Obligations.OpenRegionRead :=
  fun _ _ _ hs => ⟨exec_read hs rfl, exec_read hs rfl⟩

/-- Settles O20: the step runs the form of the window that the address lies in, which answers as O15 to O18 say. -/
theorem readFollowsTheFourSteps : Obligations.ReadFollowsTheFourSteps := by
  intro s a rest hs hb
  have hs' : State.Ready { s with bus := rest, clk := clkFor (.read a) s.clk } := ⟨hs.cfgOk, hs.running⟩
  obtain ⟨-, hromx, -⟩ := switchableWindowRead s.cfg.famCode a 0 _ hs'
  obtain ⟨-, hrom0, hquirk⟩ := fixedWindowRead s.cfg.famCode a 0 _ hs'
  obtain ⟨hopenLow, hopenHigh⟩ := openRegionRead s.cfg.famCode a _ hs'
  rw [step_of_bus hb, txnWord]
  refine ⟨fun hlo hhi hin => ?_, fun hhi => ⟨?_, fun hno => ?_⟩, fun hlo hhi hram hf hmode v hv => ?_,
    fun hlo hno => ?_⟩
  · rw [decode_rdRomx _ _ hlo hhi, hromx hin, ← romOffset_high hlo hhi]
    exact ⟨_, rfl, rfl⟩
  · rintro ⟨hf, hmode, hge, hlow⟩ hin
    rw [Nat.shiftLeft_eq] at hin ⊢
    obtain ⟨hanswer, -⟩ := hquirk hf hmode hge hlow
    rw [decode_rdRom0 _ _ hhi, hanswer hin, ← romOffset_low hhi]
    exact ⟨_, rfl, rfl⟩
  · rw [decode_rdRom0 _ _ hhi, hrom0 hno, ← romOffset_low hhi]
    exact ⟨_, rfl, rfl⟩
  · have hrtc : readsRtc s.cfg s.reg = true := (readsRtc_iff _ _).2 ⟨hram, hf, hmode⟩
    rw [decode_rdXram _ _ hlo hhi, exec_rdXram_latched _ _ hs' hrtc hv]
    exact ⟨_, rfl, rfl⟩
  · by_cases hwin : 0xA000 ≤ a.toNat ∧ a.toNat ≤ 0xBFFF
    · obtain ⟨hwlo, hwhi⟩ := hwin
      have hopen : ¬ readsRtc s.cfg s.reg = true := fun hr => hno ⟨hwlo, hwhi, (readsRtc_iff _ _).1 hr⟩
      rw [decode_rdXram _ _ hwlo hwhi, exec_rdXram_open _ _ hs' hopen]
      exact ⟨_, rfl, rfl⟩
    · rcases decode_rdOpen s.cfg.famCode 0 hlo hwin with hform | hform <;> rw [hform]
      · exact ⟨_, hopenLow, rfl⟩
      · exact ⟨_, hopenHigh, rfl⟩

/-- Settles O21: neither family computes a ROM bank, so the bank is the reset mapping; neither has the quirk or an RTC
mode. -/
theorem noMbcAndUnsupportedReads : Obligations.NoMbcAndUnsupportedReads := by
  intro f a s hinv hrun hf
  have hs : s.Ready := ⟨hinv.cfg, hrun⟩
  have hbank : s.currentRomBank = 1 := by
    obtain ⟨-, -, -, -, -, hone⟩ := romBankRangeByFamily s hinv
    exact hone hf
  obtain ⟨-, hromx, -⟩ := switchableWindowRead f a 0 s hs
  obtain ⟨-, hrom0, -⟩ := fixedWindowRead f a 0 s hs
  obtain ⟨hopen, -⟩ := ramRtcWindowRead f a s hs
  refine ⟨fun hin => ?_, ⟨_, hrom0 ?_, rfl⟩, ⟨_, hopen (.inr (.inl ?_)), rfl⟩⟩
  · rw [hbank] at hromx
    exact ⟨_, hromx hin, rfl⟩
  · rintro ⟨hmbc1, -⟩
    simp [hmbc1] at hf
  · intro hmbc3
    simp [hmbc3] at hf

/-- Settles O22: a read does the same on the two states, and leaves what it does not use. -/
theorem readsIgnoreRamEnableAndRamBank : Obligations.ReadsIgnoreRamEnableAndRamBank := by
  intro i s t x y z n hread hnext
  obtain ⟨hs, hf, rfl⟩ := exec_next.1 hnext
  have hs' : (withUnread x y z n s).Ready := ⟨hs.cfgOk, hs.running⟩
  refine ⟨withUnread x y z n (effect i (clearOutputs s)), ?_, fun _ => rfl, rfl, rfl, rfl⟩
  rw [← effect_read_withUnread x y z n _ hread]
  exact exec_ready hs' hf

end Sys2Proof.Proofs
end

section
/-! PROOF. The statement of 20_memory.md on a transaction run twice: every write is idempotent, and so is a read that
draws no free value (R73). -/

namespace Sys2Proof.Machine

/-- Two states are equal when they agree on `S`, the configuration and the interface. -/
theorem State.SameRegisters.eq {s t : State} (hS : s.SameRegisters t) (hstop : t.stop = s.stop) (hcfg : t.cfg = s.cfg)
    (hbus : t.bus = s.bus) (hclk : t.clk = s.clk) (hdout : t.dout = s.dout) (hport : t.romPort = s.romPort)
    (hdraws : t.draws = s.draws) : t = s := by
  obtain ⟨hreg, hrom, hram, hrtc⟩ := hS
  cases s; cases t
  simp_all

theorem clearOutputs_of_none {s : State} (hdout : s.dout = none) (hport : s.romPort = none) : clearOutputs s = s := by
  rw [clearOutputs, ← hdout, ← hport]

/-- What a form stores does not depend on what it stores to. -/
theorem regsAfter_regsAfter (i : Instr) (g : RegBank) : regsAfter i (regsAfter i g) = regsAfter i g := by
  cases i
  case mbc3Sel a v => simp only [regsAfter]; split_ifs <;> rfl
  all_goals rfl

theorem recomputesRam_regsAfter (i : Instr) (g : RegBank) : recomputesRam (regsAfter i g) i = recomputesRam g i := by
  cases i <;> rfl

/-- A write presents no ROM bank and draws nothing. -/
theorem effect_write_interface {i : Instr} (h : instrIsWrite i = true) (s : State) :
    (effect i s).romPort = s.romPort ∧ (effect i s).draws = s.draws := by
  cases i <;> simp only [instrIsWrite, Bool.false_eq_true] at h <;> simp only [effect, id] <;> (repeat' split) <;> simp

section WriteAgain
variable {i : Instr} {s t : State} (hreg : t.reg = regsAfter i s.reg)
include hreg

/-- A latch that has run has no edge again: the trigger holds the value written. -/
theorem effect_rtc_again : (effect i t).rtc = t.rtc := by
  rcases effect_rtc_cases i t with hsame | ⟨a, rfl, htrigger, -⟩
  · exact hsame
  · rw [hreg] at htrigger
    exact absurd (show (1 : Byte) = 0 from htrigger) (by decide)

theorem effect_ramBank_again (hcfg : t.cfg = s.cfg) (hram : t.currentRamBank = (effect i s).currentRamBank) :
    (effect i t).currentRamBank = t.currentRamBank := by
  cases hrec : recomputesRam s.reg i with
  | true =>
    have hrec' : recomputesRam t.reg i = true := by rw [hreg, recomputesRam_regsAfter, hrec]
    rw [effect_ramBank_of_recomputes hrec', hram, effect_ramBank_of_recomputes hrec, hcfg, effect_reg, effect_reg, hreg,
      regsAfter_regsAfter]
  | false =>
    have hrec' : recomputesRam t.reg i = false := by rw [hreg, recomputesRam_regsAfter, hrec]
    exact effect_ramBank_of_not_recomputes hrec'

theorem effect_romBank_again (hc : cfgOk s.cfg = true) (hf : ∀ f, formFamily i = some f → famOf s.cfg = f)
    (hcfg : t.cfg = s.cfg) (hrom : t.currentRomBank = (effect i s).currentRomBank) :
    (effect i t).currentRomBank = t.currentRomBank := by
  cases hrec : recomputesRom i with
  | true =>
    have hfirst := effect_romBank_of_recomputes hc hf hrec
    have hagain := effect_romBank_of_recomputes (s := t) (hcfg ▸ hc) (hcfg ▸ hf) hrec
    rw [effect_reg, hcfg, hreg, regsAfter_regsAfter, ← effect_reg, hfirst] at hagain
    rw [hrom, Option.some.inj hagain]
  | false => exact effect_romBank_of_not_recomputes hrec t

end WriteAgain

/-- A write form does nothing to the state it has left running, whatever clock sample now stands at the input. -/
theorem effect_write_again {i : Instr} {s : State} (hw : instrIsWrite i = true) (hc : cfgOk s.cfg = true)
    (hf : ∀ f, formFamily i = some f → famOf s.cfg = f) (hrun : (effect i s).stop = .running) (c : ClockSample) :
    effect i { effect i s with clk := c } = { effect i s with clk := c } := by
  have hcfg := effect_cfg i s
  have hreg := effect_reg i s
  obtain ⟨hport, hdraws⟩ := effect_write_interface hw { effect i s with clk := c }
  refine State.SameRegisters.eq ⟨?_, effect_romBank_again hreg hc hf hcfg rfl, effect_ramBank_again hreg hcfg rfl,
    effect_rtc_again hreg⟩ ?_ (effect_cfg ..) (effect_bus ..) (effect_clk ..) (effect_write_dout hw _) hport hdraws
  · rw [effect_reg]
    exact (congrArg _ hreg).trans ((regsAfter_regsAfter i s.reg).trans hreg.symm)
  · rcases effect_write_stop hw { effect i s with clk := c } with hsame | ⟨-, hfam⟩
    · exact hsame
    · rw [effect_of_unsupported hfam] at hrun
      exact nomatch hrun

/-- A ROM read again finds the same bank, in the image or past it. -/
theorem romRead_again (b : Nat) (o : RomOff) (a : Addr) (s : State) :
    romRead b o a (clearOutputs (romRead b o a (clearOutputs s))) = romRead b o a (clearOutputs s) := by
  rcases Nat.lt_or_ge b s.cfg.romBankCount with hin | hout
  · rw [romRead_in (s := clearOutputs s) hin, romRead_in (by exact hin)]; rfl
  · rw [romRead_out (s := clearOutputs s) hout, romRead_out (by exact hout)]; rfl

/-- An RTC read again finds the same entry, unless it drew a free value. -/
theorem rtcRead_again (i : Byte) {s : State} (h : (rtcRead i (clearOutputs s)).draws = s.draws) :
    rtcRead i (clearOutputs (rtcRead i (clearOutputs s))) = rtcRead i (clearOutputs s) := by
  cases he : s.rtc.entry i with
  | latched v =>
    rw [rtcRead_latched (s := clearOutputs s) he, rtcRead_latched (by exact he)]; rfl
  | unlatched =>
    rw [rtcRead_unlatched (s := clearOutputs s) he] at h
    exact absurd h (by simp)

/-- A read form that drew no free value does the same again. -/
theorem effect_read_again {i : Instr} {s : State} (hr : instrIsWrite i = false)
    (hdraws : (effect i (clearOutputs s)).draws = s.draws) :
    effect i (clearOutputs (effect i (clearOutputs s))) = effect i (clearOutputs s) := by
  cases i <;> simp only [instrIsWrite, reduceCtorEq] at hr
  case rdRom0 f a =>
    by_cases hq : mbc1LargeRomQuirk s.cfg s.reg = true
    · rw [effect_rdRom0_quirk f a (s := clearOutputs s) hq, effect_rdRom0_quirk f a (by simpa using hq),
        clearOutputs_reg, romRead_reg]
      exact romRead_again ..
    · rw [effect_rdRom0_plain f a (s := clearOutputs s) hq, effect_rdRom0_plain f a (by simpa using hq)]
      exact romRead_again ..
  case rdRomx f a =>
    simp only [effect, clearOutputs_currentRomBank, romRead_currentRomBank]
    exact romRead_again ..
  case rdXram f a =>
    by_cases hrtc : readsRtc s.cfg s.reg = true
    · have hfirst := effect_rdXram_rtc f a (s := clearOutputs s) hrtc
      rw [hfirst] at hdraws ⊢
      rw [effect_rdXram_rtc f a (by simpa using hrtc), clearOutputs_reg, rtcRead_reg]
      exact rtcRead_again _ hdraws
    · rw [effect_rdXram_open f a (s := clearOutputs s) hrtc, effect_rdXram_open f a (by simpa using hrtc)]
      rfl
  all_goals rfl

end Sys2Proof.Machine

namespace Sys2Proof.Proofs

open Sys2Proof.Machine

/-- Settles O48: what a form left, it finds as it would leave it again; an RTC read that draws is the exception. -/
theorem transactionsAreIdempotent : Obligations.TransactionsAreIdempotent := by
  intro i s t hnext hrun
  obtain ⟨hs, hf, rfl⟩ := exec_next.1 hnext
  have hcfg : (effect i (clearOutputs s)).cfg = s.cfg := effect_cfg ..
  have hf' : ∀ f, formFamily i = some f → famOf (effect i (clearOutputs s)).cfg = f := hcfg ▸ hf
  have hs' : (effect i (clearOutputs s)).Ready := ⟨hcfg ▸ hs.cfgOk, hrun⟩
  refine ⟨fun hw c => ?_, fun hr hdraws => ?_⟩
  · obtain ⟨hport, -⟩ := effect_write_interface hw (clearOutputs s)
    have hclear := clearOutputs_of_none (s := { effect i (clearOutputs s) with clk := c })
      (effect_write_dout hw (clearOutputs s)) hport
    rw [exec_ready (s := { effect i (clearOutputs s) with clk := c }) ⟨hs'.cfgOk, hs'.running⟩ hf', hclear,
      effect_write_again (s := clearOutputs s) hw hs.cfgOk hf hrun]
  · rw [exec_ready hs' hf', effect_read_again hr hdraws]

end Sys2Proof.Proofs
end

section
/-! PROOF. The statements on the RAM enable writes, on the latch, and on the sequences of writes that use them
(42_write_mbc2.md R152; 43_write_mbc3_rtc.md R161, R175; 44_write_mbc5.md R191; 46_bank_index.md R220). -/

namespace Sys2Proof.Machine

/-! ## The write to 0x0000 -/

/-- Under MBC2 the RAM recompute writes 0 (46_bank_index.md R232), and nothing else. -/
theorem recomputeRam_mbc2 {s : State} (hf : famOf s.cfg = .mbc2) : recomputeRam s = { s with currentRamBank := 0 } := by
  simp [recomputeRam, computeRamBank, hf]

/-- Under each of the four families a write to 0x0000 is the RAM enable write. -/
theorem regsAfter_write_zero {cfg : Cfg}
    (hf : famOf cfg = .mbc1 ∨ famOf cfg = .mbc2 ∨ famOf cfg = .mbc3 ∨ famOf cfg = .mbc5) (v : Byte) (c : ClockSample)
    (g : RegBank) : regsAfter (decode (txnWord cfg (.write 0x0000 v c))) g = g.set .ramEnable (low4 v) := by
  rw [txnWord, decode_write, decodeWrite]
  change famOfCode _ = _ ∨ famOfCode _ = _ ∨ famOfCode _ = _ ∨ famOfCode _ = _ at hf
  rcases hf with hf | hf | hf | hf <;> rw [hf] <;> rfl

/-- Under each of the four families the step of a write to 0x0000 stores the low four bits in RAM_ENABLE. -/
theorem step_write_zero {s : State} (hs : s.Ready)
    (hf : famOf s.cfg = .mbc1 ∨ famOf s.cfg = .mbc2 ∨ famOf s.cfg = .mbc3 ∨ famOf s.cfg = .mbc5)
    {v : Byte} {c : ClockSample} {rest : List BusTxn} (hb : s.bus = .write 0x0000 v c :: rest) :
    ∃ t, step s = .next t ∧ t.reg.ramEnable = low4 v := by
  refine ⟨_, step_ready hb hs, ?_⟩
  rw [effect_reg, regsAfter_write_zero hf]
  rfl

/-! ## The latch -/

theorem decode_write_mbc3Latch {cfg : Cfg} (hf : famOf cfg = .mbc3) {a : Addr} (hlo : 0x6000 ≤ a.toNat)
    (hhi : a.toNat ≤ 0x7FFF) (v : Byte) (c : ClockSample) :
    decode (txnWord cfg (.write a v c)) = .mbc3Latch a v := by
  rw [txnWord, decode_write, decodeWrite, show famOfCode cfg.famCode = .mbc3 from hf]
  simp (disch := omega) only [decodeMbc3_ranges, if_pos, if_neg]

/-- The step of a latching write: it stores the trigger, samples on an edge, and leaves the block ready for the next
write. -/
theorem step_mbc3Latch {s : State} (hs : s.Ready) (hf : famOf s.cfg = .mbc3) {a : Addr}
    (ha : 0x6000 ≤ a.toNat ∧ a.toNat ≤ 0x7FFF) {v : Byte} {c : ClockSample} {rest : List BusTxn}
    (hb : s.bus = .write a v c :: rest) :
    ∃ t, step s = .next t ∧ t.Ready ∧ famOf t.cfg = .mbc3 ∧ t.bus = rest ∧ t.reg.latchTrigger = v ∧
      t.rtc = if latchEdge s.reg v then rtcOfSample c else s.rtc := by
  refine ⟨_, step_ready hb hs, ?_⟩
  rw [decode_write_mbc3Latch hf ha.1 ha.2]
  cases hedge : latchEdge s.reg v <;> simp only [effect, clearOutputs_reg, hedge]
  · exact ⟨⟨hs.cfgOk, hs.running⟩, hf, rfl, rfl, rfl⟩
  · exact ⟨⟨hs.cfgOk, hs.running⟩, hf, rfl, rfl, rfl⟩

/-- A write of 0 and then one of 1 sample the clock that comes with the second, whatever the trigger held. -/
theorem run_latchSequence {s : State} (hs : s.Ready) (hf : famOf s.cfg = .mbc3) {a0 a1 : Addr}
    (ha0 : 0x6000 ≤ a0.toNat ∧ a0.toNat ≤ 0x7FFF) (ha1 : 0x6000 ≤ a1.toNat ∧ a1.toNat ≤ 0x7FFF) {c0 c1 : ClockSample}
    {rest : List BusTxn} (hb : s.bus = .write a0 0 c0 :: .write a1 1 c1 :: rest) :
    ∃ t, (∀ k, core.run (k + 2) s = core.run k t) ∧ t.Ready ∧ famOf t.cfg = .mbc3 ∧ t.bus = rest ∧
      t.reg.latchTrigger = 1 ∧ t.rtc = rtcOfSample c1 := by
  obtain ⟨t0, hstep0, hs0, hf0, hb0, htrigger0, -⟩ := step_mbc3Latch hs hf ha0 hb
  obtain ⟨t1, hstep1, hs1, hf1, hb1, htrigger1, hrtc1⟩ := step_mbc3Latch hs0 hf0 ha1 hb0
  rw [(latchEdge_iff t0.reg 1).2 ⟨htrigger0, rfl⟩, if_pos rfl] at hrtc1
  exact ⟨t1, fun k => (run_of_step hstep0 (k + 1)).trans (run_of_step hstep1 k), hs1, hf1, hb1, htrigger1, hrtc1⟩

end Sys2Proof.Machine

namespace Sys2Proof.Proofs

open Sys2Proof.Machine

/-- Settles O28: the effect is the store, then the RAM recompute under MBC2, which gives 0. -/
theorem mbc2RamEnableWrite : Obligations.Mbc2RamEnableWrite := by
  intro a v s hs hf
  constructor
  · intro hhi hbit
    rw [decode_mbc2_write, if_pos (by omega), if_neg (by omega)]
  · rw [exec_of_family hs hf rfl]
    simp only [effect, recomputeRam_mbc2, hf, setReg_cfg, clearOutputs_cfg]
    rfl

/-- Settles O29: the effect is the store, then the RAM recompute under MBC3. -/
theorem mbc3RamEnableWrite : Obligations.Mbc3RamEnableWrite := by
  intro a v s hs hf
  constructor
  · intro hhi
    rw [decode_mbc3_write, if_pos (by omega)]
  · rw [exec_of_family hs hf rfl]
    simp only [effect, recomputeRam_mbc3, hf, setReg_cfg, clearOutputs_cfg]
    rfl

/-- Settles O35: the effect is the store, then the RAM recompute under MBC5. -/
theorem mbc5RamEnableWrite : Obligations.Mbc5RamEnableWrite := by
  intro a v s hs hf
  constructor
  · intro hhi
    rw [decode_mbc5_write, if_pos (by omega)]
  · rw [exec_of_family hs hf rfl]
    simp only [effect, recomputeRam_mbc5, hf, setReg_cfg, clearOutputs_cfg]
    rfl

/-- Settles O33: the first two writes sample once, and the third meets a trigger of 1, which has no edge. -/
theorem latchSequenceSamplesOnce : Obligations.LatchSequenceSamplesOnce := by
  intro s a0 a1 a2 c0 c1 c2 hs hf ha hb
  simp only [List.mem_cons, List.not_mem_nil, or_false, forall_eq_or_imp, forall_eq] at ha
  obtain ⟨ha0, ha1, ha2⟩ := ha
  obtain ⟨t, hrun, hs', hf', hb', htrigger, hrtc⟩ := run_latchSequence hs hf ha0 ha1 hb
  obtain ⟨u, hstep, -, -, -, htrigger', hrtc'⟩ := step_mbc3Latch hs' hf' ha2 hb'
  have hnoEdge : ¬ latchEdge t.reg 1 = true := by
    rw [latchEdge_iff, htrigger]; decide
  rw [if_neg hnoEdge, hrtc] at hrtc'
  exact ⟨u, (hrun 1).trans (run_of_step hstep 0), hrtc', htrigger'⟩

/-- Settles O50: under each family the write to 0x0000 stores the low four bits, which are the RAM enable test; LATCH
is the sequence of a write of 0 and one of 1. -/
theorem ramEnableGateAndPseudoTransactions : Obligations.RamEnableGateAndPseudoTransactions := by
  intro s c c' hs
  refine ⟨fun hf => ⟨fun v hb => ?_, fun hb => ?_, fun hb => ?_⟩, fun hf hb => ?_⟩
  · obtain ⟨t, hstep, hreg⟩ := step_write_zero hs hf hb
    refine ⟨t, hstep, ?_⟩
    rw [isRamEnabled_iff, hreg, toNat_low4, Nat.mod_mod]
  · obtain ⟨t, hstep, hreg⟩ := step_write_zero hs hf hb
    exact ⟨t, run_of_step hstep 0, hreg⟩
  · obtain ⟨t, hstep, hreg⟩ := step_write_zero hs hf hb
    exact ⟨t, run_of_step hstep 0, hreg⟩
  · obtain ⟨t, hrun, -, -, -, -, hrtc⟩ := run_latchSequence hs hf (by decide) (by decide) hb
    exact ⟨t, hrun 0, hrtc⟩

end Sys2Proof.Proofs
end

section
/-! PROOF. The statement of 20_memory.md on a bank switch: the very next read sees it (R80;
70_reset_and_hazards.md R285). -/

namespace Sys2Proof.Machine

/-- A form that recomputes the ROM bank leaves the block ready. -/
theorem ready_of_exec_recomputesRom {i : Instr} {s t : State} (h : exec i s = .next t) (hrec : recomputesRom i = true) :
    t.Ready := by
  obtain ⟨hs, hf, rfl⟩ := exec_next.1 h
  have hbank := effect_romBank_of_recomputes (s := clearOutputs s) hs.cfgOk hf hrec
  obtain ⟨-, hstop⟩ := effect_recomputesRom hrec hbank
  exact ⟨by rw [effect_cfg]; exact hs.cfgOk, hstop.trans hs.running⟩

/-- The `currentRomBank` of a next state, from what the outcome is known to be. -/
theorem currentRomBank_of_next {o : Host.Outcome State Fault Refusal} {t t' : State} (h : o = .next t)
    (h' : o = .next t') : t.currentRomBank = t'.currentRomBank := by
  rw [Host.Outcome.next.inj (h.symm.trans h')]

/-- `high << 5 | low`, or the remap of 0, with a register's low five bits for `low` (46_bank_index.md R222). -/
theorem mbc1Bank_low5 (hi : Nat) (v : Byte) :
    (if (v &&& 0x1F).toNat = 0 then hi <<< 5 + 1 else hi <<< 5 ||| (v &&& 0x1F).toNat) =
      if v.toNat % 32 = 0 then hi * 32 + 1 else hi <<< 5 ||| v.toNat % 32 := by
  rw [show (v &&& 0x1F).toNat = v.toNat % 32 from toNat_low5 v, Nat.shiftLeft_eq]

/-- The same with a register's low two bits for `high`. -/
theorem mbc1Bank_low2 (lo v : Byte) :
    (if lo.toNat = 0 then (v &&& 0x03).toNat <<< 5 + 1 else (v &&& 0x03).toNat <<< 5 ||| lo.toNat) =
      if lo = 0 then v.toNat % 4 * 32 + 1 else (v.toNat % 4) <<< 5 ||| lo.toNat := by
  have hzero : lo.toNat = 0 ↔ lo = 0 := BitVec.toNat_inj (y := 0)
  rw [show (v &&& 0x03).toNat = v.toNat % 4 from toNat_low2 v, Nat.shiftLeft_eq]
  simp only [hzero]

/-- The step of a read of the switchable window, at its place in the transactions handed over. -/
theorem step_rdRomx {s : State} {a : Addr} {rest : List BusTxn} (hb : s.bus = .read a :: rest)
    (hlo : 0x4000 ≤ a.toNat) (hhi : a.toNat ≤ 0x7FFF) :
    step s = exec (.rdRomx s.cfg.famCode a) { s with bus := rest } := by
  rw [step_of_bus hb, txnWord, decode_rdRomx _ _ hlo hhi]
  rfl

end Sys2Proof.Machine

namespace Sys2Proof.Proofs

open Sys2Proof.Machine

/-- Settles O49: the write leaves `currentRomBank` at what its registers give, which the statement of each form names;
the read that follows is of that bank. -/
theorem nextReadSeesTheBankSwitch : Obligations.NextReadSeesTheBankSwitch := by
  intro s a0 a1 v c rest i hs hb hi hrec hlo hhi
  have hs1 : State.Ready { s with bus := .read a1 :: rest, clk := c } := ⟨hs.cfgOk, hs.running⟩
  have hf : ∀ f, formFamily i = some f → famOf s.cfg = f := hi ▸ formFamily_decode s.cfg (.write a0 v c)
  have hstep := step_of_bus hb
  rw [show decode (txnWord s.cfg (.write a0 v c)) = i from hi] at hstep
  obtain ⟨t, hexec⟩ : ∃ t, exec i { s with bus := .read a1 :: rest, clk := c } = .next t := ⟨_, exec_ready hs1 hf⟩
  obtain ⟨hbank, -⟩ := bankIndicesFollowTheRecomputeTable i _ t hexec
  obtain ⟨-, -, -, hcfg, hbus, -⟩ := frameOfEveryForm i _ t hexec
  have hread := step_rdRomx hbus hlo hhi
  have ht := ready_of_exec_recomputesRom hexec hrec
  obtain ⟨-, hin, hout⟩ :=
    switchableWindowRead t.cfg.famCode a1 0 { t with bus := rest } ⟨ht.cfgOk, ht.running⟩
  have hrun : ∀ u, step t = .next u → core.run 2 s = .next u := fun u hu =>
    (run_of_step (hstep.trans hexec) 1).trans (run_of_step hu 0)
  refine ⟨t, t.currentRomBank, hstep.trans hexec, hcfg ▸ hbank hrec, ?_, ?_, ?_, ?_, ?_, ?_, fun f hl hfn => ⟨?_, ?_⟩,
    fun hlt => ⟨_, hrun _ (hread.trans (hin (hcfg ▸ hlt))), ?_⟩,
    fun hge => ⟨_, hrun _ (hread.trans (hout (hcfg ▸ hge))), rfl, rfl⟩⟩
  · rintro rfl
    exact (currentRomBank_of_next hexec (mbc1RomBankWrite a0 v _ hs1 (hf _ rfl)).2).trans (mbc1Bank_low5 _ v)
  · rintro rfl
    exact (currentRomBank_of_next hexec (mbc1RamBankWrite a0 v _ hs1 (hf _ rfl)).2).trans (mbc1Bank_low2 _ v)
  · rintro rfl
    exact currentRomBank_of_next hexec (mbc2RomBankWrite a0 v _ hs1 (hf _ rfl)).2
  · rintro rfl
    exact currentRomBank_of_next hexec (mbc3RomBankWrite a0 v _ hs1 (hf _ rfl)).2
  · rintro rfl hc
    obtain ⟨-, hcorrected, -⟩ := mbc5RomLowWrite a0 v _ hs1 (hf _ rfl)
    exact currentRomBank_of_next hexec (hcorrected hc)
  · rintro rfl hc
    obtain ⟨-, hcorrected, -⟩ := mbc5RomHighWrite a0 v _ hs1 (hf _ rfl)
    exact currentRomBank_of_next hexec (hcorrected hc)
  · rintro rfl
    obtain ⟨-, -, hliteral⟩ := mbc5RomLowWrite a0 v _ hs1 (hf _ rfl)
    exact currentRomBank_of_next hexec (hliteral f hl hfn)
  · rintro rfl
    obtain ⟨-, -, hliteral⟩ := mbc5RomHighWrite a0 v _ hs1 (hf _ rfl)
    exact currentRomBank_of_next hexec (hliteral f hl hfn)
  · show some _ = some _
    rw [← romOffset_high hlo hhi, hcfg]
    rfl

end Sys2Proof.Proofs
end
